-- ==== Sys2Proof/Word.lean ====
section
/-! DEFINITION. The widths of the machine (`spec/00_scope.md` R7): words, bytes, register numbers and instruction words. -/

namespace Sys2Proof

/-- A value of XLEN = 64 bits: an integer register, the `pc`, an address, a CSR (R7, R21, R24). -/
abbrev Word := BitVec 64

/-- One memory location (R50). -/
abbrev Byte := BitVec 8

/-- A register number, 0 to 31: the fields `rd`, `rs1`, `rs2` (R91). -/
abbrev Reg := BitVec 5

/-- A CSR number, 0 to 4095 (R104). -/
abbrev CsrNumber := BitVec 12

/-- A 32-bit instruction word (R90). -/
abbrev InstWord := BitVec 32

end Sys2Proof
end

