-- ==== Sys2Proof/Syntax.lean ====
section
/-! DEFINITION. The 64 instructions, one constructor for each row of `spec/opcode_table.json`, with operands as the fields of `spec/30_encoding.md` R91 to R105. -/

namespace Sys2Proof

/-- An instruction with its decoded operands. Offsets of branches and JAL hold the whole byte offset, bit 0 included
(R101, R102); a CSR number, a shift amount and a FENCE set hold the field as it stands (R99, R104, R105). -/
inductive Instr where
  -- 40_word_arith.md
  | addiw (rd rs1 : Reg) (imm : BitVec 12)
  | slliw (rd rs1 : Reg) (shamt : BitVec 5)
  | srliw (rd rs1 : Reg) (shamt : BitVec 5)
  | sraiw (rd rs1 : Reg) (shamt : BitVec 5)
  | addw (rd rs1 rs2 : Reg)
  | subw (rd rs1 rs2 : Reg)
  | sllw (rd rs1 rs2 : Reg)
  | srlw (rd rs1 rs2 : Reg)
  | sraw (rd rs1 rs2 : Reg)
  -- 41_load_store_64.md
  | lwu (rd rs1 : Reg) (offset : BitVec 12)
  | ld (rd rs1 : Reg) (offset : BitVec 12)
  | sd (rs2 rs1 : Reg) (offset : BitVec 12)
  -- 42_int_imm.md
  | lui (rd : Reg) (imm : BitVec 20)
  | auipc (rd : Reg) (imm : BitVec 20)
  | addi (rd rs1 : Reg) (imm : BitVec 12)
  | slti (rd rs1 : Reg) (imm : BitVec 12)
  | sltiu (rd rs1 : Reg) (imm : BitVec 12)
  | xori (rd rs1 : Reg) (imm : BitVec 12)
  | ori (rd rs1 : Reg) (imm : BitVec 12)
  | andi (rd rs1 : Reg) (imm : BitVec 12)
  | slli (rd rs1 : Reg) (shamt : BitVec 6)
  | srli (rd rs1 : Reg) (shamt : BitVec 6)
  | srai (rd rs1 : Reg) (shamt : BitVec 6)
  -- 43_int_reg.md
  | add (rd rs1 rs2 : Reg)
  | sub (rd rs1 rs2 : Reg)
  | sll (rd rs1 rs2 : Reg)
  | slt (rd rs1 rs2 : Reg)
  | sltu (rd rs1 rs2 : Reg)
  | xor (rd rs1 rs2 : Reg)
  | srl (rd rs1 rs2 : Reg)
  | sra (rd rs1 rs2 : Reg)
  | or (rd rs1 rs2 : Reg)
  | and (rd rs1 rs2 : Reg)
  -- 44_fence.md
  | fence (pred succ : BitVec 4)
  | fenceI
  -- 45_csr.md
  | csrrw (rd : Reg) (csr : CsrNumber) (rs1 : Reg)
  | csrrs (rd : Reg) (csr : CsrNumber) (rs1 : Reg)
  | csrrc (rd : Reg) (csr : CsrNumber) (rs1 : Reg)
  | csrrwi (rd : Reg) (csr : CsrNumber) (uimm : BitVec 5)
  | csrrsi (rd : Reg) (csr : CsrNumber) (uimm : BitVec 5)
  | csrrci (rd : Reg) (csr : CsrNumber) (uimm : BitVec 5)
  -- 46_system.md
  | ecall
  | ebreak
  | uret
  | sret
  | mret
  | wfi
  | sfenceVma (rs1 rs2 : Reg)
  -- 47_load_store.md
  | lb (rd rs1 : Reg) (offset : BitVec 12)
  | lh (rd rs1 : Reg) (offset : BitVec 12)
  | lw (rd rs1 : Reg) (offset : BitVec 12)
  | lbu (rd rs1 : Reg) (offset : BitVec 12)
  | lhu (rd rs1 : Reg) (offset : BitVec 12)
  | sb (rs2 rs1 : Reg) (offset : BitVec 12)
  | sh (rs2 rs1 : Reg) (offset : BitVec 12)
  | sw (rs2 rs1 : Reg) (offset : BitVec 12)
  -- 48_control_transfer.md
  | jal (rd : Reg) (offset : BitVec 21)
  | jalr (rd rs1 : Reg) (offset : BitVec 12)
  | beq (rs1 rs2 : Reg) (offset : BitVec 13)
  | bne (rs1 rs2 : Reg) (offset : BitVec 13)
  | blt (rs1 rs2 : Reg) (offset : BitVec 13)
  | bge (rs1 rs2 : Reg) (offset : BitVec 13)
  | bltu (rs1 rs2 : Reg) (offset : BitVec 13)
  | bgeu (rs1 rs2 : Reg) (offset : BitVec 13)
deriving DecidableEq, Repr

end Sys2Proof
end

