-- ==== Sys2Proof/WellFormed.lean ====
section
/-! DEFINITION. Which terms of `Instr` an encoding exists for (`spec/30_encoding.md` R101, R102, R120): the offset of a branch and of JAL is even. Every other operand range is the range of its field's width. -/

namespace Sys2Proof

/-- The operands are in the ranges of R120. -/
def Instr.wellFormed : Instr → Bool
  | .jal _ offset => !offset.getLsbD 0
  | .beq _ _ offset | .bne _ _ offset | .blt _ _ offset | .bge _ _ offset | .bltu _ _ offset | .bgeu _ _ offset =>
    !offset.getLsbD 0
  | .addiw .. | .slliw .. | .srliw .. | .sraiw .. | .addw .. | .subw .. | .sllw .. | .srlw .. | .sraw .. => true
  | .lwu .. | .ld .. | .sd .. => true
  | .lui .. | .auipc .. | .addi .. | .slti .. | .sltiu .. | .xori .. | .ori .. | .andi .. | .slli .. | .srli .. | .srai .. => true
  | .add .. | .sub .. | .sll .. | .slt .. | .sltu .. | .xor .. | .srl .. | .sra .. | .or .. | .and .. => true
  | .fence .. | .fenceI => true
  | .csrrw .. | .csrrs .. | .csrrc .. | .csrrwi .. | .csrrsi .. | .csrrci .. => true
  | .ecall | .ebreak | .uret | .sret | .mret | .wfi | .sfenceVma .. => true
  | .lb .. | .lh .. | .lw .. | .lbu .. | .lhu .. | .sb .. | .sh .. | .sw .. => true
  | .jalr .. => true

end Sys2Proof
end

