-- ==== Sys2Proof/Decode.lean ====
section
/-! DEFINITION. The decoder and the encoder (`spec/30_encoding.md`): the opcode table row by row as `spec/opcode_table.json` gives it, the operand fields of each format, a total decoder that rejects by name, and the encoder written from the same formats. -/

namespace Sys2Proof

/-! ## Field positions (R91 to R105) -/

/-- `rd = inst[11:7]` (R91). -/
def fieldRd (w : InstWord) : Reg := w.extractLsb' 7 5

/-- `rs1 = inst[19:15]` (R91). -/
def fieldRs1 (w : InstWord) : Reg := w.extractLsb' 15 5

/-- `rs2 = inst[24:20]` (R91). -/
def fieldRs2 (w : InstWord) : Reg := w.extractLsb' 20 5

/-- The I immediate `inst[31:20]` (R98); the CSR number stands in the same bits (R104). -/
def fieldImmI (w : InstWord) : BitVec 12 := w.extractLsb' 20 12

/-- The S immediate, bits 31 to 25 above bits 11 to 7 (R100). -/
def fieldImmS (w : InstWord) : BitVec 12 := w.extractLsb' 25 7 ++ w.extractLsb' 7 5

/-- The B offset: `inst[31]`, `inst[7]`, `inst[30:25]`, `inst[11:8]` and a zero (R101). -/
def fieldImmB (w : InstWord) : BitVec 13 :=
  w.extractLsb' 31 1 ++ w.extractLsb' 7 1 ++ w.extractLsb' 25 6 ++ w.extractLsb' 8 4 ++ 0#1

/-- The U immediate's field `inst[31:12]` (R103). -/
def fieldImmU (w : InstWord) : BitVec 20 := w.extractLsb' 12 20

/-- The J offset: `inst[31]`, `inst[19:12]`, `inst[20]`, `inst[30:21]` and a zero (R102). -/
def fieldImmJ (w : InstWord) : BitVec 21 :=
  w.extractLsb' 31 1 ++ w.extractLsb' 12 8 ++ w.extractLsb' 20 1 ++ w.extractLsb' 21 10 ++ 0#1

/-- The 6-bit shift amount `inst[25:20]` (R99). -/
def fieldShamt6 (w : InstWord) : BitVec 6 := w.extractLsb' 20 6

/-- The 5-bit shift amount `inst[24:20]` (R99). -/
def fieldShamt5 (w : InstWord) : BitVec 5 := w.extractLsb' 20 5

/-- `pred = inst[27:24]` (R105). -/
def fieldPred (w : InstWord) : BitVec 4 := w.extractLsb' 24 4

/-- `succ = inst[23:20]` (R105). -/
def fieldSucc (w : InstWord) : BitVec 4 := w.extractLsb' 20 4

/-! ## Formats: the operands an instruction of each format takes from its word (R92 to R95, R108) -/

def iType (op : Reg → Reg → BitVec 12 → Instr) (w : InstWord) : Instr := op (fieldRd w) (fieldRs1 w) (fieldImmI w)

def shift64Type (op : Reg → Reg → BitVec 6 → Instr) (w : InstWord) : Instr := op (fieldRd w) (fieldRs1 w) (fieldShamt6 w)

def shift32Type (op : Reg → Reg → BitVec 5 → Instr) (w : InstWord) : Instr := op (fieldRd w) (fieldRs1 w) (fieldShamt5 w)

def rType (op : Reg → Reg → Reg → Instr) (w : InstWord) : Instr := op (fieldRd w) (fieldRs1 w) (fieldRs2 w)

def sType (op : Reg → Reg → BitVec 12 → Instr) (w : InstWord) : Instr := op (fieldRs2 w) (fieldRs1 w) (fieldImmS w)

def bType (op : Reg → Reg → BitVec 13 → Instr) (w : InstWord) : Instr := op (fieldRs1 w) (fieldRs2 w) (fieldImmB w)

def uType (op : Reg → BitVec 20 → Instr) (w : InstWord) : Instr := op (fieldRd w) (fieldImmU w)

def jType (op : Reg → BitVec 21 → Instr) (w : InstWord) : Instr := op (fieldRd w) (fieldImmJ w)

def csrType (op : Reg → CsrNumber → Reg → Instr) (w : InstWord) : Instr := op (fieldRd w) (fieldImmI w) (fieldRs1 w)

/-- Bits 19 to 15 are the immediate `uimm` (R104; `90_conflicts.md` C2). -/
def csrImmType (op : Reg → CsrNumber → BitVec 5 → Instr) (w : InstWord) : Instr :=
  op (fieldRd w) (fieldImmI w) (fieldRs1 w)

def fenceType (op : BitVec 4 → BitVec 4 → Instr) (w : InstWord) : Instr := op (fieldPred w) (fieldSucc w)

def sfenceType (op : Reg → Reg → Instr) (w : InstWord) : Instr := op (fieldRs1 w) (fieldRs2 w)

/-! ## The opcode table -/

/-- One row of `opcode_table.json`: the row matches a word when `(w & mask) == match` (R110; the table's `match` is
`pattern` here), and `build` reads the operands of its format. -/
structure OpcodeRow where
  mnemonic : String
  pattern : InstWord
  mask : InstWord
  build : InstWord → Instr

/-- The rows of `40_word_arith.md`. -/
def wordArithRows : List OpcodeRow := [
  { mnemonic := "addiw", pattern := 0x0000001b#32, mask := 0x0000707f#32, build := iType .addiw },
  { mnemonic := "slliw", pattern := 0x0000101b#32, mask := 0xfe00707f#32, build := shift32Type .slliw },
  { mnemonic := "srliw", pattern := 0x0000501b#32, mask := 0xfe00707f#32, build := shift32Type .srliw },
  { mnemonic := "sraiw", pattern := 0x4000501b#32, mask := 0xfe00707f#32, build := shift32Type .sraiw },
  { mnemonic := "addw", pattern := 0x0000003b#32, mask := 0xfe00707f#32, build := rType .addw },
  { mnemonic := "subw", pattern := 0x4000003b#32, mask := 0xfe00707f#32, build := rType .subw },
  { mnemonic := "sllw", pattern := 0x0000103b#32, mask := 0xfe00707f#32, build := rType .sllw },
  { mnemonic := "srlw", pattern := 0x0000503b#32, mask := 0xfe00707f#32, build := rType .srlw },
  { mnemonic := "sraw", pattern := 0x4000503b#32, mask := 0xfe00707f#32, build := rType .sraw }]

/-- The rows of `41_load_store_64.md`. -/
def loadStore64Rows : List OpcodeRow := [
  { mnemonic := "lwu", pattern := 0x00006003#32, mask := 0x0000707f#32, build := iType .lwu },
  { mnemonic := "ld", pattern := 0x00003003#32, mask := 0x0000707f#32, build := iType .ld },
  { mnemonic := "sd", pattern := 0x00003023#32, mask := 0x0000707f#32, build := sType .sd }]

/-- The rows of `42_int_imm.md`. -/
def intImmRows : List OpcodeRow := [
  { mnemonic := "lui", pattern := 0x00000037#32, mask := 0x0000007f#32, build := uType .lui },
  { mnemonic := "auipc", pattern := 0x00000017#32, mask := 0x0000007f#32, build := uType .auipc },
  { mnemonic := "addi", pattern := 0x00000013#32, mask := 0x0000707f#32, build := iType .addi },
  { mnemonic := "slti", pattern := 0x00002013#32, mask := 0x0000707f#32, build := iType .slti },
  { mnemonic := "sltiu", pattern := 0x00003013#32, mask := 0x0000707f#32, build := iType .sltiu },
  { mnemonic := "xori", pattern := 0x00004013#32, mask := 0x0000707f#32, build := iType .xori },
  { mnemonic := "ori", pattern := 0x00006013#32, mask := 0x0000707f#32, build := iType .ori },
  { mnemonic := "andi", pattern := 0x00007013#32, mask := 0x0000707f#32, build := iType .andi },
  { mnemonic := "slli", pattern := 0x00001013#32, mask := 0xfc00707f#32, build := shift64Type .slli },
  { mnemonic := "srli", pattern := 0x00005013#32, mask := 0xfc00707f#32, build := shift64Type .srli },
  { mnemonic := "srai", pattern := 0x40005013#32, mask := 0xfc00707f#32, build := shift64Type .srai }]

/-- The rows of `43_int_reg.md`. -/
def intRegRows : List OpcodeRow := [
  { mnemonic := "add", pattern := 0x00000033#32, mask := 0xfe00707f#32, build := rType .add },
  { mnemonic := "sub", pattern := 0x40000033#32, mask := 0xfe00707f#32, build := rType .sub },
  { mnemonic := "sll", pattern := 0x00001033#32, mask := 0xfe00707f#32, build := rType .sll },
  { mnemonic := "slt", pattern := 0x00002033#32, mask := 0xfe00707f#32, build := rType .slt },
  { mnemonic := "sltu", pattern := 0x00003033#32, mask := 0xfe00707f#32, build := rType .sltu },
  { mnemonic := "xor", pattern := 0x00004033#32, mask := 0xfe00707f#32, build := rType .xor },
  { mnemonic := "srl", pattern := 0x00005033#32, mask := 0xfe00707f#32, build := rType .srl },
  { mnemonic := "sra", pattern := 0x40005033#32, mask := 0xfe00707f#32, build := rType .sra },
  { mnemonic := "or", pattern := 0x00006033#32, mask := 0xfe00707f#32, build := rType .or },
  { mnemonic := "and", pattern := 0x00007033#32, mask := 0xfe00707f#32, build := rType .and }]

/-- The rows of `44_fence.md`. -/
def fenceRows : List OpcodeRow := [
  { mnemonic := "fence", pattern := 0x0000000f#32, mask := 0xf00fffff#32, build := fenceType .fence },
  { mnemonic := "fence.i", pattern := 0x0000100f#32, mask := 0xffffffff#32, build := fun _ => .fenceI }]

/-- The rows of `45_csr.md`. -/
def csrRows : List OpcodeRow := [
  { mnemonic := "csrrw", pattern := 0x00001073#32, mask := 0x0000707f#32, build := csrType .csrrw },
  { mnemonic := "csrrs", pattern := 0x00002073#32, mask := 0x0000707f#32, build := csrType .csrrs },
  { mnemonic := "csrrc", pattern := 0x00003073#32, mask := 0x0000707f#32, build := csrType .csrrc },
  { mnemonic := "csrrwi", pattern := 0x00005073#32, mask := 0x0000707f#32, build := csrImmType .csrrwi },
  { mnemonic := "csrrsi", pattern := 0x00006073#32, mask := 0x0000707f#32, build := csrImmType .csrrsi },
  { mnemonic := "csrrci", pattern := 0x00007073#32, mask := 0x0000707f#32, build := csrImmType .csrrci }]

/-- The rows of `46_system.md`. -/
def systemRows : List OpcodeRow := [
  { mnemonic := "ecall", pattern := 0x00000073#32, mask := 0xffffffff#32, build := fun _ => .ecall },
  { mnemonic := "ebreak", pattern := 0x00100073#32, mask := 0xffffffff#32, build := fun _ => .ebreak },
  { mnemonic := "uret", pattern := 0x00200073#32, mask := 0xffffffff#32, build := fun _ => .uret },
  { mnemonic := "sret", pattern := 0x10200073#32, mask := 0xffffffff#32, build := fun _ => .sret },
  { mnemonic := "mret", pattern := 0x30200073#32, mask := 0xffffffff#32, build := fun _ => .mret },
  { mnemonic := "wfi", pattern := 0x10500073#32, mask := 0xffffffff#32, build := fun _ => .wfi },
  { mnemonic := "sfence.vma", pattern := 0x12000073#32, mask := 0xfe007fff#32, build := sfenceType .sfenceVma }]

/-- The rows of `47_load_store.md`. -/
def loadStoreRows : List OpcodeRow := [
  { mnemonic := "lb", pattern := 0x00000003#32, mask := 0x0000707f#32, build := iType .lb },
  { mnemonic := "lh", pattern := 0x00001003#32, mask := 0x0000707f#32, build := iType .lh },
  { mnemonic := "lw", pattern := 0x00002003#32, mask := 0x0000707f#32, build := iType .lw },
  { mnemonic := "lbu", pattern := 0x00004003#32, mask := 0x0000707f#32, build := iType .lbu },
  { mnemonic := "lhu", pattern := 0x00005003#32, mask := 0x0000707f#32, build := iType .lhu },
  { mnemonic := "sb", pattern := 0x00000023#32, mask := 0x0000707f#32, build := sType .sb },
  { mnemonic := "sh", pattern := 0x00001023#32, mask := 0x0000707f#32, build := sType .sh },
  { mnemonic := "sw", pattern := 0x00002023#32, mask := 0x0000707f#32, build := sType .sw }]

/-- The rows of `48_control_transfer.md`. -/
def controlRows : List OpcodeRow := [
  { mnemonic := "jal", pattern := 0x0000006f#32, mask := 0x0000007f#32, build := jType .jal },
  { mnemonic := "jalr", pattern := 0x00000067#32, mask := 0x0000707f#32, build := iType .jalr },
  { mnemonic := "beq", pattern := 0x00000063#32, mask := 0x0000707f#32, build := bType .beq },
  { mnemonic := "bne", pattern := 0x00001063#32, mask := 0x0000707f#32, build := bType .bne },
  { mnemonic := "blt", pattern := 0x00004063#32, mask := 0x0000707f#32, build := bType .blt },
  { mnemonic := "bge", pattern := 0x00005063#32, mask := 0x0000707f#32, build := bType .bge },
  { mnemonic := "bltu", pattern := 0x00006063#32, mask := 0x0000707f#32, build := bType .bltu },
  { mnemonic := "bgeu", pattern := 0x00007063#32, mask := 0x0000707f#32, build := bType .bgeu }]

/-- `spec/opcode_table.json`, in its order (R110). -/
def opcodeTable : List OpcodeRow :=
  wordArithRows ++ loadStore64Rows ++ intImmRows ++ intRegRows ++ fenceRows ++ csrRows ++ systemRows ++ loadStoreRows ++
    controlRows

/-- The row matches the word: `(w & mask) == match` (R110). -/
def OpcodeRow.accepts (row : OpcodeRow) (w : InstWord) : Bool := (w &&& row.mask) == row.pattern

/-! ## The decoder -/

/-- Why bytes are no instruction. The hart raises `IllegalInstruction` for every word that is none (R111); the names say
which clause of R111 or R112 the word falls under. -/
inductive DecodeError where
  /-- Fewer than four bytes: no word at all (R90). -/
  | tooShort
  /-- Bits 1-0 are not 11: a 16-bit encoding of a wider configuration (R90). -/
  | notThirtyTwoBits (w : InstWord)
  /-- The major opcode is in no row (R106). -/
  | noMajorOpcode (w : InstWord)
  /-- The SLLIW, SRLIW or SRAIW pattern with `inst[25]` = 1: reserved (R112). -/
  | reservedWordShift (w : InstWord)
  /-- The major opcode exists and no row of it matches (R107 to R109). -/
  | noMinorOpcode (w : InstWord)
deriving DecidableEq, Repr

/-- Names the clause under which a word that matches no row is illegal (R111, R112). -/
def classifyIllegal (w : InstWord) : DecodeError :=
  if w.extractLsb' 0 2 != 3#2 then .notThirtyTwoBits w
  else if !opcodeTable.any (fun row => row.pattern.extractLsb' 0 7 == w.extractLsb' 0 7) then .noMajorOpcode w
  else if w.getLsbD 25 && opcodeTable.any (fun row => row.mask == 0xfe00707f#32 && row.pattern.extractLsb' 0 7 == 0x1b#7
      && row.accepts (w &&& ~~~(1#32 <<< 25))) then .reservedWordShift w
  else .noMinorOpcode w

/-- Decoding one word (R110): the row that matches it gives the instruction; no row, no instruction (R111). -/
def decodeWord (w : InstWord) : Except DecodeError Instr :=
  match opcodeTable.find? (fun row => row.accepts w) with
  | some row => .ok (row.build w)
  | none => .error (classifyIllegal w)

/-- Four bytes, the lowest address first, as one little-endian word (R56, R64). -/
def wordOfBytes (b0 b1 b2 b3 : Byte) : InstWord := b3 ++ b2 ++ b1 ++ b0

/-- The byte of a word at `addr + k` (R56). -/
def byteOfWord (w : InstWord) (k : Nat) : Byte := w.extractLsb' (8 * k) 8

/-- Decoding a sequence of bytes, lowest address first: the instruction and the bytes after it. Total on any bytes. -/
def decode : List Byte → Except DecodeError (Instr × List Byte)
  | b0 :: b1 :: b2 :: b3 :: rest => (decodeWord (wordOfBytes b0 b1 b2 b3)).map (fun i => (i, rest))
  | _ => .error .tooShort

/-- The instruction the decoder reads from an instruction whose bits are `w`, numbered as `opcode_table.json` numbers
them; the word is laid out as memory stores it, lowest byte first (R64), and bits above `nbits` are 0. -/
def decodeTableWord (nbits w : Nat) : Option Instr :=
  let word : InstWord := BitVec.ofNat 32 (w % 2 ^ nbits)
  match decode [byteOfWord word 0, byteOfWord word 1, byteOfWord word 2, byteOfWord word 3] with
  | .ok (i, _) => some i
  | .error _ => none

/-! ## The encoder -/

/-- A field placed at bit `k` of a word whose other bits are 0. -/
def place {n : Nat} (v : BitVec n) (k : Nat) : InstWord := v.setWidth 32 <<< k

def encIType (p : InstWord) (rd rs1 : Reg) (imm : BitVec 12) : InstWord :=
  p ||| place rd 7 ||| place rs1 15 ||| place imm 20

def encShift64Type (p : InstWord) (rd rs1 : Reg) (sh : BitVec 6) : InstWord :=
  p ||| place rd 7 ||| place rs1 15 ||| place sh 20

def encShift32Type (p : InstWord) (rd rs1 : Reg) (sh : BitVec 5) : InstWord :=
  p ||| place rd 7 ||| place rs1 15 ||| place sh 20

def encRType (p : InstWord) (rd rs1 rs2 : Reg) : InstWord :=
  p ||| place rd 7 ||| place rs1 15 ||| place rs2 20

def encSType (p : InstWord) (rs2 rs1 : Reg) (off : BitVec 12) : InstWord :=
  p ||| place (off.extractLsb' 0 5) 7 ||| place rs1 15 ||| place rs2 20 ||| place (off.extractLsb' 5 7) 25

def encBType (p : InstWord) (rs1 rs2 : Reg) (off : BitVec 13) : InstWord :=
  p ||| place (off.extractLsb' 11 1) 7 ||| place (off.extractLsb' 1 4) 8 ||| place rs1 15 ||| place rs2 20 |||
    place (off.extractLsb' 5 6) 25 ||| place (off.extractLsb' 12 1) 31

def encUType (p : InstWord) (rd : Reg) (imm : BitVec 20) : InstWord :=
  p ||| place rd 7 ||| place imm 12

def encJType (p : InstWord) (rd : Reg) (off : BitVec 21) : InstWord :=
  p ||| place rd 7 ||| place (off.extractLsb' 12 8) 12 ||| place (off.extractLsb' 11 1) 20 |||
    place (off.extractLsb' 1 10) 21 ||| place (off.extractLsb' 20 1) 31

def encCsrType (p : InstWord) (rd : Reg) (csr : CsrNumber) (rs1 : Reg) : InstWord :=
  p ||| place rd 7 ||| place rs1 15 ||| place csr 20

def encCsrImmType (p : InstWord) (rd : Reg) (csr : CsrNumber) (uimm : BitVec 5) : InstWord :=
  p ||| place rd 7 ||| place uimm 15 ||| place csr 20

def encFenceType (p : InstWord) (pred succ : BitVec 4) : InstWord :=
  p ||| place succ 20 ||| place pred 24

def encSfenceType (p : InstWord) (rs1 rs2 : Reg) : InstWord :=
  p ||| place rs1 15 ||| place rs2 20

/-- The word of an instruction (R92 to R95, R108, with the `match` of its row). Of an offset with bit 0 set, which no
word holds (R101, R102), it drops that bit. -/
def encode : Instr → InstWord
  | .addiw rd rs1 imm => encIType 0x0000001b#32 rd rs1 imm
  | .slliw rd rs1 sh => encShift32Type 0x0000101b#32 rd rs1 sh
  | .srliw rd rs1 sh => encShift32Type 0x0000501b#32 rd rs1 sh
  | .sraiw rd rs1 sh => encShift32Type 0x4000501b#32 rd rs1 sh
  | .addw rd rs1 rs2 => encRType 0x0000003b#32 rd rs1 rs2
  | .subw rd rs1 rs2 => encRType 0x4000003b#32 rd rs1 rs2
  | .sllw rd rs1 rs2 => encRType 0x0000103b#32 rd rs1 rs2
  | .srlw rd rs1 rs2 => encRType 0x0000503b#32 rd rs1 rs2
  | .sraw rd rs1 rs2 => encRType 0x4000503b#32 rd rs1 rs2
  | .lwu rd rs1 imm => encIType 0x00006003#32 rd rs1 imm
  | .ld rd rs1 imm => encIType 0x00003003#32 rd rs1 imm
  | .sd rs2 rs1 off => encSType 0x00003023#32 rs2 rs1 off
  | .lui rd imm => encUType 0x00000037#32 rd imm
  | .auipc rd imm => encUType 0x00000017#32 rd imm
  | .addi rd rs1 imm => encIType 0x00000013#32 rd rs1 imm
  | .slti rd rs1 imm => encIType 0x00002013#32 rd rs1 imm
  | .sltiu rd rs1 imm => encIType 0x00003013#32 rd rs1 imm
  | .xori rd rs1 imm => encIType 0x00004013#32 rd rs1 imm
  | .ori rd rs1 imm => encIType 0x00006013#32 rd rs1 imm
  | .andi rd rs1 imm => encIType 0x00007013#32 rd rs1 imm
  | .slli rd rs1 sh => encShift64Type 0x00001013#32 rd rs1 sh
  | .srli rd rs1 sh => encShift64Type 0x00005013#32 rd rs1 sh
  | .srai rd rs1 sh => encShift64Type 0x40005013#32 rd rs1 sh
  | .add rd rs1 rs2 => encRType 0x00000033#32 rd rs1 rs2
  | .sub rd rs1 rs2 => encRType 0x40000033#32 rd rs1 rs2
  | .sll rd rs1 rs2 => encRType 0x00001033#32 rd rs1 rs2
  | .slt rd rs1 rs2 => encRType 0x00002033#32 rd rs1 rs2
  | .sltu rd rs1 rs2 => encRType 0x00003033#32 rd rs1 rs2
  | .xor rd rs1 rs2 => encRType 0x00004033#32 rd rs1 rs2
  | .srl rd rs1 rs2 => encRType 0x00005033#32 rd rs1 rs2
  | .sra rd rs1 rs2 => encRType 0x40005033#32 rd rs1 rs2
  | .or rd rs1 rs2 => encRType 0x00006033#32 rd rs1 rs2
  | .and rd rs1 rs2 => encRType 0x00007033#32 rd rs1 rs2
  | .fence pred succ => encFenceType 0x0000000f#32 pred succ
  | .fenceI => 0x0000100f#32
  | .csrrw rd csr rs1 => encCsrType 0x00001073#32 rd csr rs1
  | .csrrs rd csr rs1 => encCsrType 0x00002073#32 rd csr rs1
  | .csrrc rd csr rs1 => encCsrType 0x00003073#32 rd csr rs1
  | .csrrwi rd csr uimm => encCsrImmType 0x00005073#32 rd csr uimm
  | .csrrsi rd csr uimm => encCsrImmType 0x00006073#32 rd csr uimm
  | .csrrci rd csr uimm => encCsrImmType 0x00007073#32 rd csr uimm
  | .ecall => 0x00000073#32
  | .ebreak => 0x00100073#32
  | .uret => 0x00200073#32
  | .sret => 0x10200073#32
  | .mret => 0x30200073#32
  | .wfi => 0x10500073#32
  | .sfenceVma rs1 rs2 => encSfenceType 0x12000073#32 rs1 rs2
  | .lb rd rs1 imm => encIType 0x00000003#32 rd rs1 imm
  | .lh rd rs1 imm => encIType 0x00001003#32 rd rs1 imm
  | .lw rd rs1 imm => encIType 0x00002003#32 rd rs1 imm
  | .lbu rd rs1 imm => encIType 0x00004003#32 rd rs1 imm
  | .lhu rd rs1 imm => encIType 0x00005003#32 rd rs1 imm
  | .sb rs2 rs1 off => encSType 0x00000023#32 rs2 rs1 off
  | .sh rs2 rs1 off => encSType 0x00001023#32 rs2 rs1 off
  | .sw rs2 rs1 off => encSType 0x00002023#32 rs2 rs1 off
  | .jal rd off => encJType 0x0000006f#32 rd off
  | .jalr rd rs1 imm => encIType 0x00000067#32 rd rs1 imm
  | .beq rs1 rs2 off => encBType 0x00000063#32 rs1 rs2 off
  | .bne rs1 rs2 off => encBType 0x00001063#32 rs1 rs2 off
  | .blt rs1 rs2 off => encBType 0x00004063#32 rs1 rs2 off
  | .bge rs1 rs2 off => encBType 0x00005063#32 rs1 rs2 off
  | .bltu rs1 rs2 off => encBType 0x00006063#32 rs1 rs2 off
  | .bgeu rs1 rs2 off => encBType 0x00007063#32 rs1 rs2 off

end Sys2Proof
end

