-- ==== Sys2Proof/Config.lean ====
section
/-! DEFINITION. The parameters the source leaves open (`spec/00_scope.md` R8) as plain data, and the free values: opaque constants with no body for what the spec leaves unspecified. -/

namespace Sys2Proof

/-- What `raise` does (R8 `TRAP_MODEL`): end the run with a trap record (R311), or enter the standard trap (R313). -/
inductive TrapModel where
  | terminal
  | privileged
deriving DecidableEq, Repr

/-- What a misaligned load or store does (R8 `MISALIGNED_DATA`, R58). -/
inductive MisalignedData where
  | trap
  | support
deriving DecidableEq, Repr

/-- Main memory, or a device without semantics (R52, R63). -/
inductive RegionKind where
  | main
  | device
deriving DecidableEq, Repr

/-- One region of the memory map: the addresses `base` to `base + size - 1`, with a permission for each kind of
access (R52). -/
structure Region where
  base : Nat
  size : Nat
  read : Bool
  write : Bool
  execute : Bool
  kind : RegionKind
deriving DecidableEq, Repr

/-- How the platform drives MEIP, MTIP and MSIP (R338): `steady` lines keep the value they have (all 0 from reset: the
premise that no interrupt source is connected), `drawn` lines take an unconstrained value at every step boundary.
Log 13. -/
inductive PlatformLines where
  | steady
  | drawn
deriving DecidableEq, Repr

/-- The parameters of table R8 that are arguments of the model. They do not change during a run (R20). Machine mode
always exists (R29). -/
structure Config where
  /-- `TRAP_MODEL` (R311, R313); it also decides `CSRS` (R30). -/
  trapModel : TrapModel
  /-- `MISALIGNED_DATA` (R58). -/
  misaligned : MisalignedData
  /-- S is in `MODES` (R323). -/
  hasS : Bool
  /-- U is in `MODES` (R323). -/
  hasU : Bool
  /-- `HAS_N`, user-level trap support (R323). -/
  hasN : Bool
  /-- `WFI_IN_U` (R235). -/
  wfiInU : Bool
  /-- `MEM` (R52). -/
  map : List Region
  /-- `RESET_PC` (R361). -/
  resetPc : Word
  /-- The platform inputs under `privileged` (R338, R351). -/
  platform : PlatformLines
  /-- The value of `mvendorid` (R339). -/
  vendorId : Word
  /-- The value of `marchid` (R339). -/
  archId : Word
  /-- The value of `mimpid` (R339). -/
  impId : Word
deriving DecidableEq, Repr

/-- FREE VALUE: the byte an address holds at launch when the launch image does not list it (R362). Log 9. -/
opaque Config.freeLaunchByte : Nat → Byte

/-- FREE VALUE: which of the contents a byte has held since the last FENCE.I a fetch of it returns (R66): an index for a
draw and an address, reduced to the number of candidates by its user. Log 10. -/
opaque Config.freeStaleIndex : Nat → Nat → Nat

/-- FREE VALUE: whether a WFI with no enabled interrupt pending completes at this draw (R235). Log 11. -/
opaque Config.freeWfiEnds : Nat → Bool

/-- FREE VALUE: whether a WFI below M-mode with TW = 1 raises at this draw (R235). Log 12. -/
opaque Config.freeWfiTimeout : Nat → Bool

/-- FREE VALUE: the platform's interrupt inputs at this draw, of which bits 3, 7 and 11 are used (R338). Log 13. -/
opaque Config.freePlatformLines : Nat → Word

/-- FREE VALUE: `mvendorid` of the launched hart (R339). Log 15. -/
opaque Config.freeVendorId : Word

/-- FREE VALUE: `marchid` of the launched hart (R339). Log 15. -/
opaque Config.freeArchId : Word

/-- FREE VALUE: `mimpid` of the launched hart (R339). Log 15. -/
opaque Config.freeImpId : Word

/-- The configuration of `State.reset` (R8 gives the defaults of `MISALIGNED_DATA`, `MODES`, `HAS_N`, `WFI_IN_U`). DESIGN
CHOICE, unsafe for other configurations: `TRAP_MODEL` (log 1), `MEM` all of the address space but its top 4096 bytes
(log 4), `RESET_PC` (log 5), steady platform lines (log 13). -/
def Config.launchDefault : Config where
  trapModel := .privileged
  misaligned := .trap
  hasS := true
  hasU := true
  hasN := true
  wfiInU := false
  map := [{ base := 0, size := 2 ^ 64 - 4096, read := true, write := true, execute := true, kind := .main }]
  resetPc := 0x1000#64
  platform := .steady
  vendorId := Config.freeVendorId
  archId := Config.freeArchId
  impId := Config.freeImpId

end Sys2Proof
end

