-- ==== Sys2Proof/Machine/State.lean ====
section
/-! DEFINITION. The state of the hart and its memory as plain data (`spec/10_state.md` R20), the reasons a step can stop, and the state after reset (R40). -/

namespace Sys2Proof.Machine

/-! ## Names -/

/-- The privilege modes, U < S < M (R29, R320). -/
inductive Mode where
  | u
  | s
  | m
deriving DecidableEq, Repr

/-- The eleven synchronous exceptions (R300). -/
inductive Exc where
  | instructionAddressMisaligned
  | instructionAccessFault
  | illegalInstruction
  | breakpoint
  | loadAddressMisaligned
  | loadAccessFault
  | storeAddressMisaligned
  | storeAccessFault
  | environmentCallFromUMode
  | environmentCallFromSMode
  | environmentCallFromMMode
deriving DecidableEq, Repr

/-- The nine interrupts (R344): software, timer and external, for each mode. -/
inductive Irq where
  | usi
  | ssi
  | msi
  | uti
  | sti
  | mti
  | uei
  | sei
  | mei
deriving DecidableEq, Repr

/-- The widths of a data access: 1, 2, 4 or 8 bytes (R53). -/
inductive Width where
  | byte
  | half
  | word
  | double
deriving DecidableEq, Repr

/-- What an access needs permission for (R52). -/
inductive Access where
  | read
  | write
  | execute
deriving DecidableEq, Repr

/-- The control and status registers of table R330, views included. -/
inductive Csr where
  | ustatus | uie | utvec | uscratch | uepc | ucause | utval | uip
  | sstatus | sedeleg | sideleg | sie | stvec | sscratch | sepc | scause | stval | sip | satp
  | mstatus | misa | medeleg | mideleg | mie | mtvec | mscratch | mepc | mcause | mtval | mip
  | mvendorid | marchid | mimpid | mhartid
deriving DecidableEq, Repr

/-! ## Registers and memory -/

/-- The fields of `mstatus` that can change (R331), the one home of `mstatus`, `sstatus` and `ustatus` (R332). WPRI, FS,
XS, UXL, SXL and SD are hardwired and are supplied where the register is read. -/
structure Mstatus where
  uie : Bool
  sie : Bool
  mie : Bool
  upie : Bool
  spie : Bool
  mpie : Bool
  /-- The mode before the last trap into S-mode: true is S, false is U. -/
  spp : Bool
  mpp : Mode
  mprv : Bool
  sum : Bool
  mxr : Bool
  tvm : Bool
  tw : Bool
  tsr : Bool
deriving DecidableEq, Repr

/-- The CSRs that have storage (R330 to R339). `sstatus`, `ustatus`, `sie`, `sip`, `uie`, `uip` are views of these;
`misa`, `satp` and the identification registers have no writable bit (R339). -/
structure CsrFile where
  mstatus : Mstatus
  mtvec : Word
  stvec : Word
  utvec : Word
  mepc : Word
  sepc : Word
  uepc : Word
  mcause : Word
  scause : Word
  ucause : Word
  mtval : Word
  stval : Word
  utval : Word
  mscratch : Word
  sscratch : Word
  uscratch : Word
  medeleg : Word
  mideleg : Word
  sedeleg : Word
  sideleg : Word
  mie : Word
  mip : Word
deriving DecidableEq, Repr

/-- Memory: (address, byte) pairs, addresses strictly rising (R50). An address that is not listed holds a launch byte
no rule gives (R362): it has no value here, and a read of it takes the free value `Config.freeLaunchByte`. Log 9. -/
abbrev Memory := List Host.Cell

/-- The canonical form of memory: addresses strictly rising and below 2^64. Every listed entry differs from what an
unlisted address holds, which is no value at all. -/
def Memory.wf : Memory → Bool
  | [] => true
  | [c] => decide (c.1 < 2 ^ 64)
  | c :: d :: rest => decide (c.1 < d.1) && Memory.wf (d :: rest)

/-- The machine (R20). -/
structure State where
  /-- The parameters of R8: no state of the hart, constant in every run (R20). Log 2. -/
  cfg : Config
  /-- The integer registers (R21). Entry 0 is never read and never written (R22). -/
  x : Vector Word 32
  /-- The address of the instruction being executed (R24). -/
  pc : Word
  /-- The privilege mode (R29). -/
  priv : Mode
  /-- The control and status registers (R30); unused under `TRAP_MODEL = terminal`. -/
  csr : CsrFile
  /-- The memory (R33). -/
  mem : Memory
  /-- The set S of R66 with its history: one entry for every byte stored to since the last FENCE.I, the address and the
  content the byte held before that store (`none`: the launch byte), latest first. -/
  stored : List (Nat × Option Byte)
  /-- The hart is stalled in the WFI at `pc` (R35 (d)). Log 11. -/
  stalled : Bool
  /-- The MODEL's own counter that free values are applied to. Log 21. -/
  draws : Nat
deriving DecidableEq, Repr

/-! ## How a step can stop -/

/-- The trap record (R310): the exception, its code, the recorded value, the address of the instruction and the mode. -/
structure TrapRecord where
  exc : Exc
  code : Nat
  info : Word
  pc : Word
  mode : Mode
deriving DecidableEq, Repr

/-- The faults. -/
inductive Fault where
  /-- Raised by every exception under `TRAP_MODEL = terminal` (R311): the run ends with this record and the state is as
  it was before the instruction. It is the spec's own end of a run, so it is safe. -/
  | trapped (record : TrapRecord)
deriving DecidableEq, Repr

/-- The refusals. -/
inductive Refusal where
  /-- Raised by `exec` for an instruction that has no meaning yet; safe. -/
  | notModelled (mnemonic : String)
  /-- Raised by a load or store that touches a byte `MEM` marks as a device (R63): the spec gives devices no semantics;
  safe. -/
  | deviceAccess (address : Word)
  /-- Raised by a fetch that touches a byte `MEM` marks as a device (R63); safe. -/
  | deviceFetch (address : Word)
deriving DecidableEq, Repr

/-- The three outcomes of a step of this machine. -/
abbrev Outcome := Host.Outcome State Fault Refusal

/-! ## Reset (R40, R360) -/

/-- `mstatus` of `State.reset`: every field R40 leaves unspecified is 0, which in MPP is U. DESIGN CHOICE, unsafe. Log 8. -/
def Mstatus.zero : Mstatus where
  uie := false
  sie := false
  mie := false
  upie := false
  spie := false
  mpie := false
  spp := false
  mpp := .u
  mprv := false
  sum := false
  mxr := false
  tvm := false
  tw := false
  tsr := false

/-- The CSRs of `State.reset`: every writable field R40 leaves unspecified is 0. DESIGN CHOICE, unsafe. Log 8. -/
def CsrFile.zero : CsrFile where
  mstatus := Mstatus.zero
  mtvec := 0
  stvec := 0
  utvec := 0
  mepc := 0
  sepc := 0
  uepc := 0
  mcause := 0
  scause := 0
  ucause := 0
  mtval := 0
  stval := 0
  utval := 0
  mscratch := 0
  sscratch := 0
  uscratch := 0
  medeleg := 0
  mideleg := 0
  sedeleg := 0
  sideleg := 0
  mie := 0
  mip := 0

/-- The machine right after reset, nothing loaded (R40, R360): `pc` at `RESET_PC`, mode M, MIE and MPRV 0, the set S empty.
`x1` to `x31` are unspecified: DESIGN CHOICE 0, unsafe. Log 7. For every other configuration and every other unspecified
value it is `State.launch`. -/
def State.reset : State where
  cfg := Config.launchDefault
  x := Vector.replicate 32 0
  pc := Config.launchDefault.resetPc
  priv := .m
  csr := CsrFile.zero
  mem := []
  stored := []
  stalled := false
  draws := 0

end Sys2Proof.Machine
end

