-- ==== Sys2Proof/Machine/Operands.lean ====
section
/-! DEFINITION. Operand forms and the arithmetic of `spec/00_scope.md` R9 to R11: extensions, word results, shift amounts, comparisons, effective addresses and jump targets; the codes of modes, exceptions and interrupts. -/

namespace Sys2Proof.Machine

/-! ## Extensions (R11) -/

/-- `sext_64` (R11). -/
def sext64 {n : Nat} (v : BitVec n) : Word := v.signExtend 64

/-- `zext_64` (R11). -/
def zext64 {n : Nat} (v : BitVec n) : Word := v.setWidth 64

/-- The low 32 bits of a value (R16: `e[31:0]`). -/
def low32 (v : Word) : BitVec 32 := v.setWidth 32

/-- A comparison's 0 or 1 in 64 bits (R10). -/
def boolWord (b : Bool) : Word := if b then 1 else 0

/-- The operand of LUI and AUIPC: the 20-bit field above 12 zeros, sign-extended (R103). -/
def upperImm (imm : BitVec 20) : Word := sext64 (imm ++ 0#12)

/-! ## Shift amounts from a register -/

/-- The count of SLL, SRL, SRA: the low 6 bits (R182). -/
def shamt6 (v : Word) : Nat := (v.setWidth 6).toNat

/-- The count of SLLW, SRLW, SRAW: the low 5 bits (R140). -/
def shamt5 (v : Word) : Nat := (v.setWidth 5).toNat

/-! ## Addresses -/

/-- The effective address of a load or store (R51), with the base register's value. -/
def effectiveAddress (base : Word) (offset : BitVec 12) : Word := base + sext64 offset

/-- A multiple of 4 (R25, R279). -/
def aligned4 (t : Word) : Bool := t.extractLsb' 0 2 == 0#2

/-- Bits 1-0 cleared: `{v[63:2], 2'b00}` (R333, R334). -/
def clearLow2 (v : Word) : Word := v &&& ~~~3#64

/-- Bit 0 cleared: JALR's `& ~1` (R271). -/
def clearLow1 (v : Word) : Word := v &&& ~~~1#64

/-! ## Widths, modes and codes -/

/-- The number of bytes of an access (R53). -/
def Width.bytes : Width → Nat
  | .byte => 1
  | .half => 2
  | .word => 4
  | .double => 8

/-- The encodings U = 0, S = 1, M = 3 (R29). -/
def Mode.code : Mode → Nat
  | .u => 0
  | .s => 1
  | .m => 3

/-- The mode with a code, if any (R29; 2 is the code of none). -/
def Mode.ofCode (b : BitVec 2) : Option Mode :=
  if b = 0#2 then some .u else if b = 1#2 then some .s else if b = 3#2 then some .m else none

/-- Whether a mode is in `MODES` (R323). -/
def Mode.present (cfg : Config) : Mode → Bool
  | .u => cfg.hasU
  | .s => cfg.hasS
  | .m => true

/-- User-level trap handling exists (R323, R330: `HAS_N` and U in `MODES`). -/
def userTraps (cfg : Config) : Bool := cfg.hasN && cfg.hasU

/-- `medeleg` and `mideleg` exist (R330). -/
def machineDelegation (cfg : Config) : Bool := cfg.hasS || userTraps cfg

/-- `sedeleg` and `sideleg` exist (R330). -/
def supervisorDelegation (cfg : Config) : Bool := cfg.hasS && cfg.hasN

/-- What MPP holds when a mode is put there: the mode, or M without U-mode, where MPP is hardwired (R323, R331). Log 18. -/
def mppHolds (cfg : Config) (y : Mode) : Mode := if cfg.hasU then y else .m

/-- The least privileged mode MRET leaves in MPP (R234). -/
def leastMode (cfg : Config) : Mode := if cfg.hasU then .u else .m

/-- The cause codes (R301). -/
def Exc.code : Exc → Nat
  | .instructionAddressMisaligned => 0
  | .instructionAccessFault => 1
  | .illegalInstruction => 2
  | .breakpoint => 3
  | .loadAddressMisaligned => 4
  | .loadAccessFault => 5
  | .storeAddressMisaligned => 6
  | .storeAccessFault => 7
  | .environmentCallFromUMode => 8
  | .environmentCallFromSMode => 9
  | .environmentCallFromMMode => 11

/-- The interrupt codes (R344), which are also the bit numbers in `mip` and `mie` (R338). -/
def Irq.code : Irq → Nat
  | .usi => 0
  | .ssi => 1
  | .msi => 3
  | .uti => 4
  | .sti => 5
  | .mti => 7
  | .uei => 8
  | .sei => 9
  | .mei => 11

/-- The interrupts from the highest priority to the lowest within one handler mode (R343). -/
def Irq.byPriority : List Irq := [.mei, .msi, .mti, .sei, .ssi, .sti, .uei, .usi, .uti]

/-- The value of a cause register: the Interrupt bit 63 above the code (R335, R341). -/
def causeWord (interrupt : Bool) (code : Nat) : Word := BitVec.ofBool interrupt ++ BitVec.ofNat 63 code

/-- A single bit of a register, at position `k`. -/
def bitAt (b : Bool) (k : Nat) : Word := if b then 1#64 <<< k else 0

end Sys2Proof.Machine
end

