-- ==== Sys2Proof/Machine/Flags.lean ====
section
/-! DEFINITION. The single-bit state. There are no arithmetic flags or condition codes (`spec/10_state.md` R28): the only single bits are the fields of `mstatus` (R31), and this file holds how `mstatus` and its views are read and written (`spec/60_exceptions.md` R331, R332). -/

namespace Sys2Proof.Machine

/-- The fields with those that are hardwired at their fixed values (R323, R331): 0 where the mode or the extension a field
serves is absent, M in MPP without U-mode. Every read and every write of `mstatus` goes through it. Log 18. -/
def Mstatus.hardwire (cfg : Config) (f : Mstatus) : Mstatus where
  uie := userTraps cfg && f.uie
  sie := cfg.hasS && f.sie
  mie := f.mie
  upie := userTraps cfg && f.upie
  spie := cfg.hasS && f.spie
  mpie := f.mpie
  spp := cfg.hasS && f.spp
  mpp := mppHolds cfg f.mpp
  mprv := cfg.hasU && f.mprv
  sum := cfg.hasS && f.sum
  mxr := cfg.hasS && f.mxr
  tvm := cfg.hasS && f.tvm
  tw := cfg.hasU && f.tw
  tsr := cfg.hasS && f.tsr

/-- Every field at its place (R331), UXL and SXL 2 where the mode exists, all other bits 0. -/
def Mstatus.layout (cfg : Config) (f : Mstatus) : Word :=
  bitAt f.uie 0 ||| bitAt f.sie 1 ||| bitAt f.mie 3 ||| bitAt f.upie 4 ||| bitAt f.spie 5 ||| bitAt f.mpie 7 |||
    bitAt f.spp 8 ||| (BitVec.ofNat 64 f.mpp.code <<< 11) ||| bitAt f.mprv 17 ||| bitAt f.sum 18 ||| bitAt f.mxr 19 |||
    bitAt f.tvm 20 ||| bitAt f.tw 21 ||| bitAt f.tsr 22 ||| bitAt cfg.hasU 33 ||| bitAt cfg.hasS 35

/-- `mstatus` as software reads it (R331). -/
def Mstatus.toWord (cfg : Config) (f : Mstatus) : Word := (f.hardwire cfg).layout cfg

/-- The legalisation of MPP (R331): a written code of a mode in `MODES` is taken, any other leaves the field as it was.
Log 17. -/
def legalMpp (cfg : Config) (old : Mode) (written : BitVec 2) : Mode :=
  match Mode.ofCode written with
  | some y => if y.present cfg then y else old
  | none => old

/-- The fields at their places in a written word (R331), MPP legalised. -/
def Mstatus.ofWord (cfg : Config) (oldMpp : Mode) (v : Word) : Mstatus where
  uie := v.getLsbD 0
  sie := v.getLsbD 1
  mie := v.getLsbD 3
  upie := v.getLsbD 4
  spie := v.getLsbD 5
  mpie := v.getLsbD 7
  spp := v.getLsbD 8
  mpp := legalMpp cfg oldMpp (v.extractLsb' 11 2)
  mprv := v.getLsbD 17
  sum := v.getLsbD 18
  mxr := v.getLsbD 19
  tvm := v.getLsbD 20
  tw := v.getLsbD 21
  tsr := v.getLsbD 22

/-- A write of `mstatus` (R212, R331): every field is taken from its place in the word, and a hardwired one keeps its fixed
value. -/
def Mstatus.write (cfg : Config) (f : Mstatus) (v : Word) : Mstatus := (Mstatus.ofWord cfg f.mpp v).hardwire cfg

/-- The bits of `mstatus` that `sstatus` shows (R332): UIE, SIE, UPIE, SPIE, SPP, FS, XS, SUM, MXR, UXL, SD. -/
def sstatusMask : Word := 0x80000003000DE133#64

/-- The bits of `mstatus` that `ustatus` shows (R332): UIE and UPIE. -/
def ustatusMask : Word := 0x11#64

/-- The word a write through a view gives the underlying register: the bits in the view's mask are the written ones, all
others as they were (R212, R332, R338). -/
def viewWrite (mask old v : Word) : Word := (v &&& mask) ||| (old &&& ~~~mask)

/-- xIE, the interrupt-enable bit of a mode (R331). -/
def Mstatus.ie (f : Mstatus) : Mode → Bool
  | .u => f.uie
  | .s => f.sie
  | .m => f.mie

/-- What trap entry into mode `y` from mode `p` does to `mstatus` (R341): yPIE takes yIE, yIE becomes 0, yPP takes `p`
(there is no UPP; MPP without U-mode keeps M, R323). -/
def Mstatus.enterTrap (cfg : Config) (f : Mstatus) (p : Mode) : Mode → Mstatus
  | .u => { f with upie := f.uie, uie := false }
  | .s => { f with spie := f.sie, sie := false, spp := p == .s }
  | .m => { f with mpie := f.mie, mie := false, mpp := mppHolds cfg p }

/-- What trap return from mode `y` does to `mstatus` (R232 to R234, R342): yIE takes yPIE, yPIE becomes 1, yPP becomes
the least privileged mode. In {M, S} R342 would put S, 1, in SPP and the pseudocode of R233 puts 0: SPP becomes 0, DEDUCED,
unsafe for {M, S}. Log 18. -/
def Mstatus.leaveTrap (cfg : Config) (f : Mstatus) : Mode → Mstatus
  | .u => { f with uie := f.upie, upie := true }
  | .s => { f with sie := f.spie, spie := true, spp := false }
  | .m => { f with mie := f.mpie, mpie := true, mpp := leastMode cfg }

/-- The mode trap return from mode `y` goes to (R232 to R234): U, the mode of SPP, the mode of MPP as it reads. -/
def Mstatus.returnMode (cfg : Config) (f : Mstatus) : Mode → Mode
  | .u => .u
  | .s => if f.spp then .s else .u
  | .m => mppHolds cfg f.mpp

end Sys2Proof.Machine
end

