-- ==== Sys2Proof/Machine/Csr.lean ====
section
/-! DEFINITION. The control and status registers: numbers and existence (`spec/60_exceptions.md` R330), the access check, reads and writes (`spec/45_csr.md` R211, R212; R331 to R339). -/

namespace Sys2Proof.Machine

/-! ## Which CSRs exist (R330) -/

/-- The number of a CSR (R330). -/
def Csr.number : Csr → CsrNumber
  | .ustatus => 0x000#12
  | .uie => 0x004#12
  | .utvec => 0x005#12
  | .uscratch => 0x040#12
  | .uepc => 0x041#12
  | .ucause => 0x042#12
  | .utval => 0x043#12
  | .uip => 0x044#12
  | .sstatus => 0x100#12
  | .sedeleg => 0x102#12
  | .sideleg => 0x103#12
  | .sie => 0x104#12
  | .stvec => 0x105#12
  | .sscratch => 0x140#12
  | .sepc => 0x141#12
  | .scause => 0x142#12
  | .stval => 0x143#12
  | .sip => 0x144#12
  | .satp => 0x180#12
  | .mstatus => 0x300#12
  | .misa => 0x301#12
  | .medeleg => 0x302#12
  | .mideleg => 0x303#12
  | .mie => 0x304#12
  | .mtvec => 0x305#12
  | .mscratch => 0x340#12
  | .mepc => 0x341#12
  | .mcause => 0x342#12
  | .mtval => 0x343#12
  | .mip => 0x344#12
  | .mvendorid => 0xF11#12
  | .marchid => 0xF12#12
  | .mimpid => 0xF13#12
  | .mhartid => 0xF14#12

/-- The user-level rows of table R330. -/
def userCsrs : List Csr := [.ustatus, .uie, .utvec, .uscratch, .uepc, .ucause, .utval, .uip]

/-- The supervisor-level rows of table R330. -/
def supervisorCsrs : List Csr :=
  [.sstatus, .sedeleg, .sideleg, .sie, .stvec, .sscratch, .sepc, .scause, .stval, .sip, .satp]

/-- The machine-level rows of table R330. -/
def machineCsrs : List Csr :=
  [.mstatus, .misa, .medeleg, .mideleg, .mie, .mtvec, .mscratch, .mepc, .mcause, .mtval, .mip, .mvendorid, .marchid,
    .mimpid, .mhartid]

/-- The CSRs in the order of table R330. -/
def allCsrs : List Csr := userCsrs ++ (supervisorCsrs ++ machineCsrs)

/-- The column "exists when" of table R330. -/
def Csr.present (cfg : Config) : Csr → Bool
  | .ustatus | .uie | .utvec | .uscratch | .uepc | .ucause | .utval | .uip => userTraps cfg
  | .sedeleg | .sideleg => supervisorDelegation cfg
  | .sstatus | .sie | .stvec | .sscratch | .sepc | .scause | .stval | .sip | .satp => cfg.hasS
  | .medeleg | .mideleg => machineDelegation cfg
  | .mstatus | .misa | .mie | .mtvec | .mscratch | .mepc | .mcause | .mtval | .mip => true
  | .mvendorid | .marchid | .mimpid | .mhartid => true

/-- `TRAP_MODEL = privileged`. -/
def State.privileged (s : State) : Bool := s.cfg.trapModel == .privileged

/-- The CSR with a number, if it is in `CSRS`: empty under `terminal`, table R330 under `privileged` (R30, R221). -/
def State.csrNumbered (s : State) (n : CsrNumber) : Option Csr :=
  if s.privileged then allCsrs.find? (fun c => c.number == n && c.present s.cfg) else none

/-! ## The access check (R211) -/

/-- `CSRCheck(c, w)` (R211): the CSR when it exists (a), belongs to no more privileged mode (b), is not read-only when
written (c), and is not `satp` in S-mode with TVM = 1 (d). -/
def State.csrCheck (s : State) (n : CsrNumber) (writes : Bool) : Option Csr :=
  match s.csrNumbered n with
  | none => none
  | some c =>
    if s.priv.code < (n.extractLsb' 8 2).toNat then none
    else if writes && n.extractLsb' 10 2 == 3#2 then none
    else if c == .satp && s.priv == .s && s.csr.mstatus.tvm then none
    else some c

/-! ## Reading (R211, R331 to R339) -/

/-- The interrupt bits that exist (R338): machine bits always, supervisor bits with S, user bits with U and `HAS_N`. -/
def interruptBits (cfg : Config) : Word :=
  0x888#64 ||| (if cfg.hasS then 0x222#64 else 0) ||| (if userTraps cfg then 0x111#64 else 0)

/-- `medeleg`, counting as 0 where it does not exist (R340). -/
def State.medelegOrZero (s : State) : Word := if machineDelegation s.cfg then s.csr.medeleg else 0

/-- `mideleg`, counting as 0 where it does not exist (R340). -/
def State.midelegOrZero (s : State) : Word := if machineDelegation s.cfg then s.csr.mideleg else 0

/-- `sedeleg`, counting as 0 where it does not exist (R340). -/
def State.sedelegOrZero (s : State) : Word := if supervisorDelegation s.cfg then s.csr.sedeleg else 0

/-- `sideleg`, counting as 0 where it does not exist (R340). Log 19. -/
def State.sidelegOrZero (s : State) : Word := if supervisorDelegation s.cfg then s.csr.sideleg else 0

/-- The bits `sip` and `sie` show: supervisor and user bits whose `mideleg` bit is 1 (R338). -/
def State.supervisorView (s : State) : Word := 0x333#64 &&& s.midelegOrZero

/-- The bits `uip` and `uie` show: user bits whose `mideleg` and `sideleg` bits are both 1 (R338). -/
def State.userView (s : State) : Word := 0x111#64 &&& s.midelegOrZero &&& s.sidelegOrZero

/-- `misa` (R339): XLEN 64, I, and the bits of the modes that exist. -/
def misaWord (cfg : Config) : Word :=
  0x8000000000000100#64 ||| bitAt cfg.hasS 18 ||| bitAt cfg.hasU 20 ||| bitAt (userTraps cfg) 13

/-- `CSRRead` (R211). No CSR has a side effect on a read. -/
def State.csrRead (s : State) : Csr → Word
  | .ustatus => s.csr.mstatus.toWord s.cfg &&& ustatusMask
  | .uie => s.csr.mie &&& s.userView
  | .utvec => s.csr.utvec
  | .uscratch => s.csr.uscratch
  | .uepc => s.csr.uepc
  | .ucause => s.csr.ucause
  | .utval => s.csr.utval
  | .uip => s.csr.mip &&& s.userView
  | .sstatus => s.csr.mstatus.toWord s.cfg &&& sstatusMask
  | .sedeleg => s.csr.sedeleg
  | .sideleg => s.csr.sideleg
  | .sie => s.csr.mie &&& s.supervisorView
  | .stvec => s.csr.stvec
  | .sscratch => s.csr.sscratch
  | .sepc => s.csr.sepc
  | .scause => s.csr.scause
  | .stval => s.csr.stval
  | .sip => s.csr.mip &&& s.supervisorView
  | .satp => 0
  | .mstatus => s.csr.mstatus.toWord s.cfg
  | .misa => misaWord s.cfg
  | .medeleg => s.csr.medeleg
  | .mideleg => s.csr.mideleg
  | .mie => s.csr.mie
  | .mtvec => s.csr.mtvec
  | .mscratch => s.csr.mscratch
  | .mepc => s.csr.mepc
  | .mcause => s.csr.mcause
  | .mtval => s.csr.mtval
  | .mip => s.csr.mip
  | .mvendorid => s.cfg.vendorId
  | .marchid => s.cfg.archId
  | .mimpid => s.cfg.impId
  | .mhartid => 0

/-! ## Writing (R212) -/

/-- `(val & ~wmask) | (v & wmask)` (R212). -/
def maskedWrite (wmask old v : Word) : Word := (old &&& ~~~wmask) ||| (v &&& wmask)

/-- A write of a trap vector (R333): BASE is written; MODE is written when it is 0 or 1, else it keeps its value.
Log 17. -/
def tvecWrite (old v : Word) : Word := if v.getLsbD 1 then maskedWrite (~~~3#64) old v else v

/-- The writable bits of `medeleg` (R337): 0 to 9, 12, 13, 15. -/
def medelegMask : Word := 0xB3FF#64

/-- The writable bits of `mideleg` (R337): 0, 1, 4, 5, 8, 9, those that exist by R338. -/
def midelegMask (cfg : Config) : Word := 0x333#64 &&& interruptBits cfg

/-- The writable bits of `sedeleg` (R337): 0 to 8, 12, 13, 15. -/
def sedelegMask : Word := 0xB1FF#64

/-- The writable bits of `sideleg` (R337): 0, 4, 8. -/
def sidelegMask : Word := 0x111#64

/-- The bits of `mip` a CSR instruction writes from M-mode (R338): SEIP, STIP, SSIP, UEIP, UTIP, USIP, those that exist. -/
def mipMask (cfg : Config) : Word := 0x333#64 &&& interruptBits cfg

/-- The bits of `mip` writable through `sip` (R338): SSIP, USIP and UEIP, those the view shows. -/
def State.sipMask (s : State) : Word := 0x103#64 &&& s.supervisorView

/-- The bit of `mip` writable through `uip` (R338): USIP, when the view shows it. -/
def State.uipMask (s : State) : Word := 0x001#64 &&& s.userView

/-- The CSRs after `CSRWrite(c, v)` (R212 with R331 to R339). A write through a view changes the visible bits of the
underlying register only (R212). `satp`, `misa` and the identification registers have no writable bit (R339). -/
def State.csrFileWrite (s : State) (v : Word) : Csr → CsrFile
  | .ustatus =>
    { s.csr with mstatus := s.csr.mstatus.write s.cfg (viewWrite ustatusMask (s.csr.mstatus.toWord s.cfg) v) }
  | .uie => { s.csr with mie := maskedWrite s.userView s.csr.mie v }
  | .utvec => { s.csr with utvec := tvecWrite s.csr.utvec v }
  | .uscratch => { s.csr with uscratch := v }
  | .uepc => { s.csr with uepc := maskedWrite (~~~3#64) s.csr.uepc v }
  | .ucause => { s.csr with ucause := v }
  | .utval => { s.csr with utval := v }
  | .uip => { s.csr with mip := maskedWrite s.uipMask s.csr.mip v }
  | .sstatus =>
    { s.csr with mstatus := s.csr.mstatus.write s.cfg (viewWrite sstatusMask (s.csr.mstatus.toWord s.cfg) v) }
  | .sedeleg => { s.csr with sedeleg := maskedWrite sedelegMask s.csr.sedeleg v }
  | .sideleg => { s.csr with sideleg := maskedWrite sidelegMask s.csr.sideleg v }
  | .sie => { s.csr with mie := maskedWrite s.supervisorView s.csr.mie v }
  | .stvec => { s.csr with stvec := tvecWrite s.csr.stvec v }
  | .sscratch => { s.csr with sscratch := v }
  | .sepc => { s.csr with sepc := maskedWrite (~~~3#64) s.csr.sepc v }
  | .scause => { s.csr with scause := v }
  | .stval => { s.csr with stval := v }
  | .sip => { s.csr with mip := maskedWrite s.sipMask s.csr.mip v }
  | .satp => s.csr
  | .mstatus => { s.csr with mstatus := s.csr.mstatus.write s.cfg v }
  | .misa => s.csr
  | .medeleg => { s.csr with medeleg := maskedWrite medelegMask s.csr.medeleg v }
  | .mideleg => { s.csr with mideleg := maskedWrite (midelegMask s.cfg) s.csr.mideleg v }
  | .mie => { s.csr with mie := maskedWrite (interruptBits s.cfg) s.csr.mie v }
  | .mtvec => { s.csr with mtvec := tvecWrite s.csr.mtvec v }
  | .mscratch => { s.csr with mscratch := v }
  | .mepc => { s.csr with mepc := maskedWrite (~~~3#64) s.csr.mepc v }
  | .mcause => { s.csr with mcause := v }
  | .mtval => { s.csr with mtval := v }
  | .mip => { s.csr with mip := maskedWrite (mipMask s.cfg) s.csr.mip v }
  | .mvendorid | .marchid | .mimpid | .mhartid => s.csr

/-- `CSRWrite(c, v)` (R212). -/
def State.csrWrite (s : State) (c : Csr) (v : Word) : State := { s with csr := s.csrFileWrite v c }

end Sys2Proof.Machine
end

