-- ==== Sys2Proof/Machine/Ops.lean ====
section
/-! DEFINITION. The named operations over registers and memory, taking an exception or an interrupt and returning from one, and fetching an instruction: `spec/10_state.md`, `spec/20_memory.md`, `spec/60_exceptions.md`, `spec/70_reset_and_hazards.md`. -/

namespace Sys2Proof.Machine

/-! ## Integer registers and pc -/

/-- `x[r]` (R12, R22): register 0 reads as 0. -/
def State.readX (s : State) (r : Reg) : Word := if r = 0#5 then 0 else s.x[r.toNat]'r.isLt

/-- `x[r] <- v` (R12, R22): a write to register 0 is discarded. -/
def State.writeX (s : State) (r : Reg) (v : Word) : State :=
  if r = 0#5 then s else { s with x := s.x.set r.toNat v r.isLt }

/-- `pc <- t` (R12). -/
def State.setPc (s : State) (t : Word) : State := { s with pc := t }

/-- The sequential advance `pc <- pc + 4` (R26), modulo 2^64 (R27). -/
def State.advance (s : State) : State := s.setPc (s.pc + 4)

/-- The end of an instruction whose one effect is `x[rd] <- v` (R12, R26). -/
def State.writeAndAdvance (s : State) (rd : Reg) (v : Word) : Outcome := .next (s.writeX rd v).advance

/-! ## Memory cells -/

/-- What a listed address holds, and no value for an address that is not listed. -/
def Memory.read : Memory → Nat → Option Byte
  | [], _ => none
  | c :: rest, a => if c.1 = a then some c.2 else Memory.read rest a

/-- Stores one byte, keeping the addresses rising. -/
def Memory.write : Memory → Nat → Byte → Memory
  | [], a, b => [(a, b)]
  | c :: rest, a, b =>
    if a < c.1 then (a, b) :: c :: rest
    else if a = c.1 then (a, b) :: rest
    else c :: Memory.write rest a b

/-- The byte at an address: the one stored last, or the byte the address has held since launch, which no rule gives
(R362). Log 9. -/
def byteOrLaunch (a : Nat) (content : Option Byte) : Byte := content.getD (Config.freeLaunchByte a)

/-- `M[a]`. -/
def State.readByte (s : State) (a : Word) : Byte := byteOrLaunch a.toNat (s.mem.read a.toNat)

/-- `M[a] <- b`, with `a` joining the set S together with what it held (R55, R66). -/
def State.writeByte (s : State) (a : Word) (b : Byte) : State :=
  { s with
    mem := s.mem.write a.toNat b
    stored := (a.toNat, s.mem.read a.toNat) :: s.stored }

/-- The `n` bytes from `a` up as one little-endian value, zero-extended (R54, R56); addresses wrap (R50). -/
def State.readBytes (s : State) (a : Word) : Nat → Word
  | 0 => 0
  | n + 1 => (s.readByte a).setWidth 64 ||| (s.readBytes (a + 1) n <<< 8)

/-- The low `8n` bits of `v` to the `n` bytes from `a` up, little-endian (R55, R56); addresses wrap (R50). -/
def State.writeBytes (s : State) (a : Word) (v : Word) : Nat → State
  | 0 => s
  | n + 1 => (s.writeByte a (v.setWidth 8)).writeBytes (a + 1) (v >>> 8) n

/-! ## The memory map (R52) -/

/-- The region an address lies in: the first that holds it. Log 6. -/
def regionAt (cfg : Config) (a : Word) : Option Region :=
  cfg.map.find? (fun r => decide (r.base ≤ a.toNat) && decide (a.toNat < r.base + r.size))

/-- The permission a region gives for an access. -/
def permitted (r : Region) : Access → Bool
  | .read => r.read
  | .write => r.write
  | .execute => r.execute

/-- A byte that does not exist or lacks the permission is vacant for the access (R52). -/
def vacantFor (cfg : Config) (k : Access) (a : Word) : Bool :=
  match regionAt cfg a with
  | some r => !permitted r k
  | none => true

/-- A byte that `MEM` marks as a device (R52). -/
def isDevice (cfg : Config) (a : Word) : Bool :=
  match regionAt cfg a with
  | some r => r.kind == .device
  | none => false

/-- The `n` byte addresses of an access, modulo 2^64 (R54). -/
def accessBytes (a : Word) (n : Nat) : List Word := (List.range n).map (fun i => a + BitVec.ofNat 64 i)

/-- A multiple of the access's width (R58). -/
def naturallyAligned (a : Word) (w : Width) : Bool := a.toNat % w.bytes == 0

/-- What the checks of a data access say (R54, R55, R61, R63). -/
inductive AccessCheck where
  | granted
  | misaligned
  | vacant
  | device
deriving DecidableEq, Repr

/-- The checks in their order: alignment, then existence and permission of every byte (R61), then devices (R63). -/
def State.checkAccess (s : State) (k : Access) (a : Word) (w : Width) : AccessCheck :=
  if s.cfg.misaligned == .trap && !naturallyAligned a w then .misaligned
  else if (accessBytes a w.bytes).any (vacantFor s.cfg k) then .vacant
  else if (accessBytes a w.bytes).any (isDevice s.cfg) then .device
  else .granted

/-! ## Taking a trap (R310 to R313, R340, R341) -/

/-- `ytvec` (R333). -/
def CsrFile.tvec (c : CsrFile) : Mode → Word
  | .u => c.utvec
  | .s => c.stvec
  | .m => c.mtvec

/-- `yepc` (R334). -/
def CsrFile.epc (c : CsrFile) : Mode → Word
  | .u => c.uepc
  | .s => c.sepc
  | .m => c.mepc

/-- The address a trap into mode `y` continues at (R341): the base, or base + 4·code for an interrupt when MODE is not
0. -/
def trapTarget (tvec : Word) (interrupt : Bool) (code : Nat) : Word :=
  if tvec.extractLsb' 0 2 == 0#2 || !interrupt then clearLow2 tvec
  else clearLow2 tvec + BitVec.ofNat 64 (4 * code)

/-- What trap entry writes in the CSRs of the handler mode (R341): yepc, ycause, ytval and the fields of `mstatus`. -/
def CsrFile.enterTrap (cfg : Config) (c : CsrFile) (p : Mode) (cause tval epc : Word) : Mode → CsrFile
  | .u => { c with mstatus := c.mstatus.enterTrap cfg p .u, uepc := clearLow2 epc, ucause := cause, utval := tval }
  | .s => { c with mstatus := c.mstatus.enterTrap cfg p .s, sepc := clearLow2 epc, scause := cause, stval := tval }
  | .m => { c with mstatus := c.mstatus.enterTrap cfg p .m, mepc := clearLow2 epc, mcause := cause, mtval := tval }

/-- TAKING A TRAP (R341), the one operation for exceptions and interrupts: into mode `y`, with the recorded address
`epc`. No integer register and no memory changes. -/
def State.takeTrap (s : State) (interrupt : Bool) (code : Nat) (tval epc : Word) (y : Mode) : State :=
  { s with
    csr := s.csr.enterTrap s.cfg s.priv (causeWord interrupt code) tval epc y
    priv := y
    pc := trapTarget (s.csr.tvec y) interrupt code }

/-- The mode that handles an exception with code `c` (R340): never a mode below `priv`. -/
def State.exceptionHandler (s : State) (c : Nat) : Mode :=
  if s.priv == .m || !s.medelegOrZero.getLsbD c then .m
  else if s.cfg.hasS then
    if s.priv == .u && s.cfg.hasN && s.sedelegOrZero.getLsbD c then .u else .s
  else if s.priv == .u then .u
  else .m

/-- `raise E(info)` (R15): the run ends with the trap record under `terminal` (R310, R311); under `privileged` the trap
is entered with the address of the raising instruction (R305, R313). Log 26. -/
def State.raise (s : State) (e : Exc) (info : Word) : Outcome :=
  match s.cfg.trapModel with
  | .terminal => .fault (.trapped { exc := e, code := e.code, info := info, pc := s.pc, mode := s.priv })
  | .privileged => .next (s.takeTrap false e.code info s.pc (s.exceptionHandler e.code))

/-- `raise IllegalInstruction(inst)` with the instruction's own word (R304); the word is the encoding of the decoded
instruction, since no bit of a matched word is free. Log 20. -/
def State.illegal (s : State) (i : Instr) : Outcome := s.raise .illegalInstruction (zext64 (encode i))

/-- RETURN FROM A TRAP handled in mode `y` (R342, R232 to R234). -/
def State.trapReturn (s : State) (y : Mode) : State :=
  { s with
    csr := { s.csr with mstatus := s.csr.mstatus.leaveTrap s.cfg y }
    priv := s.csr.mstatus.returnMode s.cfg y
    pc := clearLow2 (s.csr.epc y) }

/-! ## Loads and stores -/

/-- A load (R54): the value of the bytes read goes through `widen` to `x[rd]` (R53). A raising load writes no register
(R62). -/
def State.load (s : State) (w : Width) (widen : Word → Word) (rd rs1 : Reg) (offset : BitVec 12) : Outcome :=
  let ea := effectiveAddress (s.readX rs1) offset
  match s.checkAccess .read ea w with
  | .granted => s.writeAndAdvance rd (widen (s.readBytes ea w.bytes))
  | .misaligned => s.raise .loadAddressMisaligned ea
  | .vacant => s.raise .loadAccessFault ea
  | .device => .refused (.deviceAccess ea)

/-- A store of the low bits of `x[rs2]` (R55). A raising store writes no byte (R62). -/
def State.store (s : State) (w : Width) (rs2 rs1 : Reg) (offset : BitVec 12) : Outcome :=
  let ea := effectiveAddress (s.readX rs1) offset
  match s.checkAccess .write ea w with
  | .granted => .next (s.writeBytes ea (s.readX rs2) w.bytes).advance
  | .misaligned => s.raise .storeAddressMisaligned ea
  | .vacant => s.raise .storeAccessFault ea
  | .device => .refused (.deviceAccess ea)

/-! ## Control transfer -/

/-- A jump to `t` that writes the return address to `x[rd]`; a misaligned target raises and writes nothing (R270, R271,
R279). -/
def State.jump (s : State) (rd : Reg) (t : Word) : Outcome :=
  if aligned4 t then .next ((s.writeX rd (s.pc + 4)).setPc t) else s.raise .instructionAddressMisaligned t

/-- A conditional branch (R272): to `pc + sext_64(offset)` when it holds, the next instruction when not; only a taken
branch raises (R279). -/
def State.branch (s : State) (taken : Bool) (offset : BitVec 13) : Outcome :=
  let t := s.pc + sext64 offset
  if !taken then .next s.advance
  else if aligned4 t then .next (s.setPc t)
  else s.raise .instructionAddressMisaligned t

/-! ## CSR instructions -/

/-- One read-modify-write of a CSR (R219): the check (R211), then the old value to `x[rd]` and, when it writes (R220),
the value `f` makes of the old one to the CSR. CSRRW and CSRRWI with `rd` = x0 do not read (R220); no CSR has a read
effect and the value is discarded, so nothing shows it. -/
def State.csrAccess (s : State) (i : Instr) (rd : Reg) (n : CsrNumber) (writes : Bool) (f : Word → Word) : Outcome :=
  match s.csrCheck n writes with
  | none => s.illegal i
  | some c =>
    let old := s.csrRead c
    ((if writes then s.csrWrite c (f old) else s).writeX rd old).advance |> .next

/-! ## Interrupts (R338, R343) -/

/-- The bits of `mip` the platform drives (R338): MSIP, MTIP, MEIP. -/
def platformMask : Word := 0x888#64

/-- Samples the platform's interrupt inputs at a step boundary (R338): steady lines keep their value, drawn lines take a
free value. Under `terminal` there is no interrupt source (R314). Log 13. -/
def State.samplePlatform (s : State) : State :=
  match s.cfg.platform with
  | .steady => s
  | .drawn =>
    if s.privileged then
      { s with
        csr := { s.csr with mip := viewWrite platformMask s.csr.mip (Config.freePlatformLines s.draws) }
        draws := s.draws + 1 }
    else s

/-- Interrupt `c` is pending and individually enabled (R343). -/
def State.irqPending (s : State) (c : Irq) : Bool := s.csr.mip.getLsbD c.code && s.csr.mie.getLsbD c.code

/-- Some interrupt is pending and individually enabled (R235, R343); none ever is under `terminal` (R314). -/
def State.anyIrqPending (s : State) : Bool := s.privileged && Irq.byPriority.any s.irqPending

/-- The handler mode of interrupt `c`, from `mideleg` and `sideleg` alone (R343). -/
def State.irqHandler (s : State) (c : Irq) : Mode :=
  if !s.midelegOrZero.getLsbD c.code then .m
  else if s.cfg.hasS && !(s.cfg.hasN && s.sidelegOrZero.getLsbD c.code) then .s
  else .u

/-- Interrupt `c` is takeable (R343): pending, enabled, and its handler mode above `priv`, or equal to it with yIE = 1. -/
def State.irqTakeable (s : State) (c : Irq) : Bool :=
  let y := s.irqHandler c
  s.irqPending c && (decide (s.priv.code < y.code) || (s.priv == y && s.csr.mstatus.ie y))

/-- The interrupt taken at this boundary, if one is takeable: by handler mode M, S, U, then in the order of R343. Log 14. -/
def State.selectIrq (s : State) : Option Irq :=
  if s.privileged then
    [Mode.m, Mode.s, Mode.u].findSome? (fun y => Irq.byPriority.find? (fun c => s.irqHandler c == y && s.irqTakeable c))
  else none

/-- Takes interrupt `c` (R343): trap entry with value 0 and the current `pc`. -/
def State.takeIrq (s : State) (c : Irq) : State := s.takeTrap true c.code 0 s.pc (s.irqHandler c)

/-! ## WFI (R235) -/

/-- The stall: the hart completes WFI or stays at it. It completes for certain when an enabled interrupt is pending; when
not, a free value decides. Log 11. -/
def State.stall (s : State) : State :=
  let ends := s.anyIrqPending || Config.freeWfiEnds s.draws
  { s with
    pc := if ends then s.pc + 4 else s.pc
    stalled := !ends
    draws := s.draws + 1 }

/-- A WFI that the mode permits: below M with TW = 1 a free value decides whether it raises (R235; log 12); otherwise it
stalls. -/
def State.waitForInterrupt (s : State) : Outcome :=
  if s.privileged && s.priv != .m && s.csr.mstatus.tw && Config.freeWfiTimeout s.draws then
    State.illegal { s with stalled := false, draws := s.draws + 1 } .wfi
  else .next s.stall

/-! ## Instruction fetch (R64 to R66) -/

/-- The address is in the set S: stored to since the last FENCE.I (R66). -/
def State.inStored (s : State) (a : Word) : Bool := s.stored.any (fun e => e.1 == a.toNat)

/-- The contents the byte has held since the last FENCE.I, the current one first (R66). -/
def State.heldContents (s : State) (a : Word) : List Byte :=
  s.readByte a :: (s.stored.filter (fun e => e.1 == a.toNat)).map (fun e => byteOrLaunch a.toNat e.2)

/-- The byte a fetch returns (R66): the current content for a byte not in S; for a byte in S one of the contents it has
held, which one a free value decides. Log 10. -/
def State.fetchByte (s : State) (a : Word) : Byte :=
  if s.inStored a then
    let held := s.heldContents a
    held.getD (Config.freeStaleIndex s.draws a.toNat % held.length) (s.readByte a)
  else s.readByte a

/-- What a fetch answers. -/
inductive Fetched where
  /-- A word, and the state after the fetch: only the counter of free values may have advanced. -/
  | word (w : InstWord) (after : State)
  | vacant
  | device
deriving DecidableEq, Repr

/-- `Fetch(pc)` (R64, R65): four bytes, little-endian. -/
def State.fetch (s : State) : Fetched :=
  let bytes := accessBytes s.pc 4
  if bytes.any (vacantFor s.cfg .execute) then .vacant
  else if bytes.any (isDevice s.cfg) then .device
  else
    .word (wordOfBytes (s.fetchByte s.pc) (s.fetchByte (s.pc + 1)) (s.fetchByte (s.pc + 2)) (s.fetchByte (s.pc + 3)))
      (if bytes.any s.inStored then { s with draws := s.draws + 1 } else s)

/-- FENCE.I's effect: S becomes empty (R201). -/
def State.syncFetch (s : State) : State := { s with stored := [] }

/-! ## Loading a program from outside (R362) -/

/-- Puts the four bytes of a word at an address as part of the launch image: they count as stored before the last
FENCE.I (R362), so they leave S. Log 22. -/
def State.placeWord (s : State) (a : Word) (w : InstWord) : State :=
  { s with
    mem := (((s.mem.write a.toNat (byteOfWord w 0)).write (a + 1).toNat (byteOfWord w 1)).write (a + 2).toNat
      (byteOfWord w 2)).write (a + 3).toNat (byteOfWord w 3)
    stored := s.stored.filter (fun e => !(accessBytes a 4).any (fun b => b.toNat == e.1)) }

end Sys2Proof.Machine
end

