-- ==== Sys2Proof/Machine/Control.lean ====
section
/-! DEFINITION. Control transfer, `spec/48_control_transfer.md`. -/

namespace Sys2Proof.Machine

/-- JAL (R270): relative to its own address. -/
def execJal (rd : Reg) (offset : BitVec 21) (s : State) : Outcome :=
  s.jump rd (s.pc + sext64 offset)

/-- JALR (R271): bit 0 of the sum is cleared. -/
def execJalr (rd rs1 : Reg) (offset : BitVec 12) (s : State) : Outcome :=
  s.jump rd (clearLow1 (s.readX rs1 + sext64 offset))

/-- BEQ (R273). -/
def execBeq (rs1 rs2 : Reg) (offset : BitVec 13) (s : State) : Outcome :=
  s.branch (s.readX rs1 == s.readX rs2) offset

/-- BNE (R274). -/
def execBne (rs1 rs2 : Reg) (offset : BitVec 13) (s : State) : Outcome :=
  s.branch (s.readX rs1 != s.readX rs2) offset

/-- BLT (R275). -/
def execBlt (rs1 rs2 : Reg) (offset : BitVec 13) (s : State) : Outcome :=
  s.branch ((s.readX rs1).slt (s.readX rs2)) offset

/-- BGE (R276). -/
def execBge (rs1 rs2 : Reg) (offset : BitVec 13) (s : State) : Outcome :=
  s.branch (!(s.readX rs1).slt (s.readX rs2)) offset

/-- BLTU (R277). -/
def execBltu (rs1 rs2 : Reg) (offset : BitVec 13) (s : State) : Outcome :=
  s.branch ((s.readX rs1).ult (s.readX rs2)) offset

/-- BGEU (R278). -/
def execBgeu (rs1 rs2 : Reg) (offset : BitVec 13) (s : State) : Outcome :=
  s.branch (!(s.readX rs1).ult (s.readX rs2)) offset


end Sys2Proof.Machine
end

