-- ==== Sys2Proof/Machine/CsrInstr.lean ====
section
/-! DEFINITION. The CSR instructions, `spec/45_csr.md`. -/

namespace Sys2Proof.Machine

/-- CSRRW (R213): always writes (R220). -/
def execCsrrw (rd : Reg) (csr : CsrNumber) (rs1 : Reg) (s : State) : Outcome :=
  s.csrAccess (.csrrw rd csr rs1) rd csr true (fun _ => s.readX rs1)

/-- CSRRS (R214): writes when the field `rs1` is not 0 (R220). -/
def execCsrrs (rd : Reg) (csr : CsrNumber) (rs1 : Reg) (s : State) : Outcome :=
  s.csrAccess (.csrrs rd csr rs1) rd csr (rs1 != 0) (fun old => old ||| s.readX rs1)

/-- CSRRC (R215): writes when the field `rs1` is not 0 (R220). -/
def execCsrrc (rd : Reg) (csr : CsrNumber) (rs1 : Reg) (s : State) : Outcome :=
  s.csrAccess (.csrrc rd csr rs1) rd csr (rs1 != 0) (fun old => old &&& ~~~(s.readX rs1))

/-- CSRRWI (R216): always writes (R220). -/
def execCsrrwi (rd : Reg) (csr : CsrNumber) (uimm : BitVec 5) (s : State) : Outcome :=
  s.csrAccess (.csrrwi rd csr uimm) rd csr true (fun _ => zext64 uimm)

/-- CSRRSI (R217): writes when `uimm` is not 0 (R220). -/
def execCsrrsi (rd : Reg) (csr : CsrNumber) (uimm : BitVec 5) (s : State) : Outcome :=
  s.csrAccess (.csrrsi rd csr uimm) rd csr (uimm != 0) (fun old => old ||| zext64 uimm)

/-- CSRRCI (R218): writes when `uimm` is not 0 (R220). -/
def execCsrrci (rd : Reg) (csr : CsrNumber) (uimm : BitVec 5) (s : State) : Outcome :=
  s.csrAccess (.csrrci rd csr uimm) rd csr (uimm != 0) (fun old => old &&& ~~~(zext64 uimm))


end Sys2Proof.Machine
end

