-- ==== Sys2Proof/Machine/Fence.lean ====
section
/-! DEFINITION. The memory-ordering instructions, `spec/44_fence.md`. -/

namespace Sys2Proof.Machine

/-- FENCE (R200): it constrains what other observers see, and there is none (R72), so it only advances `pc`. Log 24. -/
def execFence (_pred _succ : BitVec 4) (s : State) : Outcome :=
  .next s.advance

/-- FENCE.I (R201): empties the set S of R66. -/
def execFenceI (s : State) : Outcome :=
  .next s.syncFetch.advance


end Sys2Proof.Machine
end

