-- ==== Sys2Proof/Machine/IntImm.lean ====
section
/-! DEFINITION. The integer register-immediate instructions, `spec/42_int_imm.md`. -/

namespace Sys2Proof.Machine

/-- LUI (R160). -/
def execLui (rd : Reg) (imm : BitVec 20) (s : State) : Outcome :=
  s.writeAndAdvance rd (upperImm imm)

/-- AUIPC (R161): relative to its own address. -/
def execAuipc (rd : Reg) (imm : BitVec 20) (s : State) : Outcome :=
  s.writeAndAdvance rd (s.pc + upperImm imm)

/-- ADDI (R162). -/
def execAddi (rd rs1 : Reg) (imm : BitVec 12) (s : State) : Outcome :=
  s.writeAndAdvance rd (s.readX rs1 + sext64 imm)

/-- SLTI (R163). -/
def execSlti (rd rs1 : Reg) (imm : BitVec 12) (s : State) : Outcome :=
  s.writeAndAdvance rd (boolWord ((s.readX rs1).slt (sext64 imm)))

/-- SLTIU (R164): the immediate is sign-extended, then read as unsigned. -/
def execSltiu (rd rs1 : Reg) (imm : BitVec 12) (s : State) : Outcome :=
  s.writeAndAdvance rd (boolWord ((s.readX rs1).ult (sext64 imm)))

/-- XORI (R165). -/
def execXori (rd rs1 : Reg) (imm : BitVec 12) (s : State) : Outcome :=
  s.writeAndAdvance rd (s.readX rs1 ^^^ sext64 imm)

/-- ORI (R166). -/
def execOri (rd rs1 : Reg) (imm : BitVec 12) (s : State) : Outcome :=
  s.writeAndAdvance rd (s.readX rs1 ||| sext64 imm)

/-- ANDI (R167). -/
def execAndi (rd rs1 : Reg) (imm : BitVec 12) (s : State) : Outcome :=
  s.writeAndAdvance rd (s.readX rs1 &&& sext64 imm)

/-- SLLI (R168). -/
def execSlli (rd rs1 : Reg) (shamt : BitVec 6) (s : State) : Outcome :=
  s.writeAndAdvance rd (s.readX rs1 <<< shamt.toNat)

/-- SRLI (R169). -/
def execSrli (rd rs1 : Reg) (shamt : BitVec 6) (s : State) : Outcome :=
  s.writeAndAdvance rd (s.readX rs1 >>> shamt.toNat)

/-- SRAI (R170): copies of bit 63 enter. -/
def execSrai (rd rs1 : Reg) (shamt : BitVec 6) (s : State) : Outcome :=
  s.writeAndAdvance rd ((s.readX rs1).sshiftRight shamt.toNat)


end Sys2Proof.Machine
end

