-- ==== Sys2Proof/Machine/IntReg.lean ====
section
/-! DEFINITION. The integer register-register instructions, `spec/43_int_reg.md`. -/

namespace Sys2Proof.Machine

/-- ADD (R180). -/
def execAdd (rd rs1 rs2 : Reg) (s : State) : Outcome :=
  s.writeAndAdvance rd (s.readX rs1 + s.readX rs2)

/-- SUB (R181). -/
def execSub (rd rs1 rs2 : Reg) (s : State) : Outcome :=
  s.writeAndAdvance rd (s.readX rs1 - s.readX rs2)

/-- SLL (R182). -/
def execSll (rd rs1 rs2 : Reg) (s : State) : Outcome :=
  s.writeAndAdvance rd (s.readX rs1 <<< shamt6 (s.readX rs2))

/-- SLT (R183). -/
def execSlt (rd rs1 rs2 : Reg) (s : State) : Outcome :=
  s.writeAndAdvance rd (boolWord ((s.readX rs1).slt (s.readX rs2)))

/-- SLTU (R184). -/
def execSltu (rd rs1 rs2 : Reg) (s : State) : Outcome :=
  s.writeAndAdvance rd (boolWord ((s.readX rs1).ult (s.readX rs2)))

/-- XOR (R185). -/
def execXor (rd rs1 rs2 : Reg) (s : State) : Outcome :=
  s.writeAndAdvance rd (s.readX rs1 ^^^ s.readX rs2)

/-- SRL (R186). -/
def execSrl (rd rs1 rs2 : Reg) (s : State) : Outcome :=
  s.writeAndAdvance rd (s.readX rs1 >>> shamt6 (s.readX rs2))

/-- SRA (R187). -/
def execSra (rd rs1 rs2 : Reg) (s : State) : Outcome :=
  s.writeAndAdvance rd ((s.readX rs1).sshiftRight (shamt6 (s.readX rs2)))

/-- OR (R188). -/
def execOr (rd rs1 rs2 : Reg) (s : State) : Outcome :=
  s.writeAndAdvance rd (s.readX rs1 ||| s.readX rs2)

/-- AND (R189). -/
def execAnd (rd rs1 rs2 : Reg) (s : State) : Outcome :=
  s.writeAndAdvance rd (s.readX rs1 &&& s.readX rs2)


end Sys2Proof.Machine
end

