-- ==== Sys2Proof/Machine/LoadStore.lean ====
section
/-! DEFINITION. The loads and stores, `spec/41_load_store_64.md` and `spec/47_load_store.md`. -/

namespace Sys2Proof.Machine

/-- Sign-extends the low `n` bits of a loaded value (R53). -/
def widenSigned (n : Nat) (v : Word) : Word := sext64 (v.setWidth n)

/-- A loaded value is zero-extended as it is read (R53, R54). -/
def widenUnsigned (v : Word) : Word := v

/-- LB (R250). -/
def execLb (rd rs1 : Reg) (offset : BitVec 12) (s : State) : Outcome :=
  s.load .byte (widenSigned 8) rd rs1 offset

/-- LH (R251). -/
def execLh (rd rs1 : Reg) (offset : BitVec 12) (s : State) : Outcome :=
  s.load .half (widenSigned 16) rd rs1 offset

/-- LW (R252). -/
def execLw (rd rs1 : Reg) (offset : BitVec 12) (s : State) : Outcome :=
  s.load .word (widenSigned 32) rd rs1 offset

/-- LBU (R253). -/
def execLbu (rd rs1 : Reg) (offset : BitVec 12) (s : State) : Outcome :=
  s.load .byte widenUnsigned rd rs1 offset

/-- LHU (R254). -/
def execLhu (rd rs1 : Reg) (offset : BitVec 12) (s : State) : Outcome :=
  s.load .half widenUnsigned rd rs1 offset

/-- LWU (R150). -/
def execLwu (rd rs1 : Reg) (offset : BitVec 12) (s : State) : Outcome :=
  s.load .word widenUnsigned rd rs1 offset

/-- LD (R151). -/
def execLd (rd rs1 : Reg) (offset : BitVec 12) (s : State) : Outcome :=
  s.load .double widenUnsigned rd rs1 offset

/-- SB (R255). -/
def execSb (rs2 rs1 : Reg) (offset : BitVec 12) (s : State) : Outcome :=
  s.store .byte rs2 rs1 offset

/-- SH (R256). -/
def execSh (rs2 rs1 : Reg) (offset : BitVec 12) (s : State) : Outcome :=
  s.store .half rs2 rs1 offset

/-- SW (R257). -/
def execSw (rs2 rs1 : Reg) (offset : BitVec 12) (s : State) : Outcome :=
  s.store .word rs2 rs1 offset

/-- SD (R152). -/
def execSd (rs2 rs1 : Reg) (offset : BitVec 12) (s : State) : Outcome :=
  s.store .double rs2 rs1 offset


end Sys2Proof.Machine
end

