-- ==== Sys2Proof/Machine/System.lean ====
section
/-! DEFINITION. The environment and privileged instructions, `spec/46_system.md`. -/

namespace Sys2Proof.Machine

/-- ECALL (R230): the environment-call exception of the current mode, recorded value 0. -/
def execEcall (s : State) : Outcome :=
  match s.priv with
  | .u => s.raise .environmentCallFromUMode 0
  | .s => s.raise .environmentCallFromSMode 0
  | .m => s.raise .environmentCallFromMMode 0

/-- EBREAK (R231): the recorded value is its own address. -/
def execEbreak (s : State) : Outcome :=
  s.raise .breakpoint s.pc

/-- URET (R232): in any mode, where user-level trap handling exists (R323); illegal under `terminal` (R239). -/
def execUret (s : State) : Outcome :=
  if s.privileged && userTraps s.cfg then .next (s.trapReturn .u) else s.illegal .uret

/-- SRET (R233): illegal in U-mode, in S-mode with TSR = 1, without S-mode (R323), under `terminal` (R239). -/
def execSret (s : State) : Outcome :=
  if s.privileged && s.cfg.hasS && s.priv != .u && !(s.priv == .s && s.csr.mstatus.tsr) then .next (s.trapReturn .s)
  else s.illegal .sret

/-- MRET (R234): illegal below M-mode and under `terminal` (R239). -/
def execMret (s : State) : Outcome :=
  if s.privileged && s.priv == .m then .next (s.trapReturn .m) else s.illegal .mret

/-- WFI (R235): illegal in U-mode unless `WFI_IN_U`. Log 11, log 12. -/
def execWfi (s : State) : Outcome :=
  if s.priv == .u && !s.cfg.wfiInU then s.illegal .wfi else s.waitForInterrupt

/-- SFENCE.VMA (R236): the privilege check, and with translation off nothing else; illegal without S-mode (R323). -/
def execSfenceVma (rs1 rs2 : Reg) (s : State) : Outcome :=
  if !s.cfg.hasS || s.priv == .u || (s.privileged && s.priv == .s && s.csr.mstatus.tvm) then s.illegal (.sfenceVma rs1 rs2)
  else .next s.advance


end Sys2Proof.Machine
end

