-- ==== Sys2Proof/Machine/WordArith.lean ====
section
/-! DEFINITION. The 32-bit (word) arithmetic and shifts, `spec/40_word_arith.md`: a 32-bit result sign-extended to 64 bits (R139). -/

namespace Sys2Proof.Machine

/-- ADDIW (R130). -/
def execAddiw (rd rs1 : Reg) (imm : BitVec 12) (s : State) : Outcome :=
  s.writeAndAdvance rd (sext64 (low32 (s.readX rs1 + sext64 imm)))

/-- SLLIW (R131). -/
def execSlliw (rd rs1 : Reg) (shamt : BitVec 5) (s : State) : Outcome :=
  s.writeAndAdvance rd (sext64 (low32 (s.readX rs1) <<< shamt.toNat))

/-- SRLIW (R132). -/
def execSrliw (rd rs1 : Reg) (shamt : BitVec 5) (s : State) : Outcome :=
  s.writeAndAdvance rd (sext64 (low32 (s.readX rs1) >>> shamt.toNat))

/-- SRAIW (R133): copies of bit 31 enter. -/
def execSraiw (rd rs1 : Reg) (shamt : BitVec 5) (s : State) : Outcome :=
  s.writeAndAdvance rd (sext64 ((low32 (s.readX rs1)).sshiftRight shamt.toNat))

/-- ADDW (R134). -/
def execAddw (rd rs1 rs2 : Reg) (s : State) : Outcome :=
  s.writeAndAdvance rd (sext64 (low32 (s.readX rs1 + s.readX rs2)))

/-- SUBW (R135). -/
def execSubw (rd rs1 rs2 : Reg) (s : State) : Outcome :=
  s.writeAndAdvance rd (sext64 (low32 (s.readX rs1 - s.readX rs2)))

/-- SLLW (R136). -/
def execSllw (rd rs1 rs2 : Reg) (s : State) : Outcome :=
  s.writeAndAdvance rd (sext64 (low32 (s.readX rs1) <<< shamt5 (s.readX rs2)))

/-- SRLW (R137). -/
def execSrlw (rd rs1 rs2 : Reg) (s : State) : Outcome :=
  s.writeAndAdvance rd (sext64 (low32 (s.readX rs1) >>> shamt5 (s.readX rs2)))

/-- SRAW (R138). -/
def execSraw (rd rs1 rs2 : Reg) (s : State) : Outcome :=
  s.writeAndAdvance rd (sext64 ((low32 (s.readX rs1)).sshiftRight (shamt5 (s.readX rs2))))


end Sys2Proof.Machine
end

