-- ==== Sys2Proof/Machine/Cycle.lean ====
section
/-! DEFINITION. The execution cycle of the hart (`spec/70_reset_and_hazards.md` R367), which `step` calls. -/

namespace Sys2Proof.Machine

/-- Decodes and executes a fetched word (R367 (3) to (5)); a word that is no instruction raises `IllegalInstruction` with
the word as recorded value (R111). -/
def State.runWord (s : State) (w : InstWord) : Outcome :=
  match decodeWord w with
  | .ok i => exec i s
  | .error _ => s.raise .illegalInstruction (zext64 w)

/-- Fetches at `pc` and runs the word (R367 (2)); a fetch that is vacant for execution raises `InstructionAccessFault`
(R65). -/
def State.fetchAndRun (s : State) : Outcome :=
  match s.fetch with
  | .word w after => after.runWord w
  | .vacant => s.raise .instructionAccessFault s.pc
  | .device => .refused (.deviceFetch s.pc)

/-- One cycle once the platform's inputs are sampled (R367): a hart stalled in WFI goes on with the WFI, which ends before
any interrupt is taken (R235, R343; log 11); otherwise a takeable interrupt is taken (R343); otherwise the instruction at
`pc` runs. -/
def State.cycle (s : State) : Outcome :=
  if s.stalled then execWfi s
  else
    match s.selectIrq with
    | some c => .next (s.takeIrq c)
    | none => s.fetchAndRun

/-- The state with a word at `pc`, loaded from outside as part of the launch image (R362), and no WFI in progress. Log 22. -/
def State.loadAtPc (s : State) (w : InstWord) : State := { s.placeWord s.pc w with stalled := false }

end Sys2Proof.Machine
end

