-- ==== Sys2Proof/Machine/Step.lean ====
section
/-! DEFINITION. One step of the hart (`spec/70_reset_and_hazards.md` R367), and an instruction's word put where the step fetches. -/

namespace Sys2Proof.Machine

/-- One step (R367): the platform's interrupt inputs are sampled (R338), then one cycle runs. -/
def step (s : State) : Host.Outcome State Fault Refusal := s.samplePlatform.cycle

/-- `s` with the instruction whose bits are `w` where `step` fetches. Every instruction is one 32-bit word (R90). Log 22. -/
def State.withFetchWord (s : State) (nbits w : Nat) : State := s.loadAtPc (BitVec.ofNat 32 (w % 2 ^ nbits))

end Sys2Proof.Machine
end

