-- ==== Sys2Proof/Machine/Launch.lean ====
section
/-! DEFINITION. Reset for any parameters and any unspecified values (`spec/70_reset_and_hazards.md` R360 to R362, R366; `spec/10_state.md` R40): `State.reset` is one of these launches. -/

namespace Sys2Proof.Machine

/-- `mstatus` right after reset (R40): MIE and MPRV 0, hardwired fields at their fixed values, the others as given but for
an MPP that is no mode of `MODES`, which R331 never lets the field hold. -/
def Mstatus.atReset (cfg : Config) (f : Mstatus) : Mstatus :=
  Mstatus.hardwire cfg
    { f with mie := false, mprv := false, mpp := if f.mpp.present cfg then f.mpp else leastMode cfg }

/-- The CSRs right after reset (R40): every bit that no write can set at its fixed value (R334, R337, R338), every other as
given but for a reserved MODE. R333 and R40 leave the MODE of a trap vector open at reset: a given MODE of 2 or 3 becomes 0,
both its bits cleared, as a write never sets either value. DESIGN CHOICE, unsafe. Log 8. -/
def CsrFile.atReset (cfg : Config) (c : CsrFile) : CsrFile :=
  { c with
    mstatus := c.mstatus.atReset cfg
    mtvec := tvecWrite 0 c.mtvec
    stvec := tvecWrite 0 c.stvec
    utvec := tvecWrite 0 c.utvec
    mepc := clearLow2 c.mepc
    sepc := clearLow2 c.sepc
    uepc := clearLow2 c.uepc
    medeleg := c.medeleg &&& medelegMask
    mideleg := c.mideleg &&& midelegMask cfg
    sedeleg := c.sedeleg &&& sedelegMask
    sideleg := c.sideleg &&& sidelegMask
    mie := c.mie &&& interruptBits cfg
    mip := c.mip &&& interruptBits cfg }

/-- The hart right after reset (R360), with what no rule fixes as arguments (R40, R362, R366): the launch image, the values
of `x1` to `x31` and of the writable CSR fields. `pc` is `RESET_PC`, the mode M, the set S empty. -/
def State.launch (cfg : Config) (image : Memory) (x : Vector Word 32) (csr : CsrFile) : State where
  cfg := cfg
  x := x
  pc := cfg.resetPc
  priv := .m
  csr := csr.atReset cfg
  mem := image
  stored := []
  stalled := false
  draws := 0

end Sys2Proof.Machine
end

