-- ==== Sys2Proof/Safety.lean ====
section
/-! DEFINITION. What counts as a safe run: how a run may end, and the invariants that every step keeps (`spec/10_state.md` R25, R29; `spec/60_exceptions.md` R311, R312, R331 to R338; `spec/70_reset_and_hazards.md` R363). -/

namespace Sys2Proof.Machine

/-! ## How a run ends -/

/-- The normal end of a run under `terminal`: an ECALL from M-mode (R312). -/
def Fault.isNormalEnd : Fault → Bool
  | .trapped record => record.exc == .environmentCallFromMMode

/-- The launch premise that says where a run under `privileged` ends, since none ends by itself there (R363). Log 29. -/
inductive EndCondition where
  /-- The first ECALL executed in M-mode; the end state is the one just after its trap is entered. The condition of a run
  from `State.reset`. -/
  | machineEcall
  /-- The first state with this `pc` that a step of the run reaches; the state the run starts from is not tested. -/
  | atAddress (a : Word)
deriving DecidableEq, Repr

/-- The hart's next step, its platform inputs sampled, executes an ECALL in M-mode. -/
def State.executesMachineEcall (s : State) : Bool :=
  s.priv == .m && !s.stalled && s.selectIrq.isNone &&
    match s.fetch with
    | .word w _ => w == encode .ecall
    | _ => false

/-- A step from `s` to `t` ends the run; under `terminal` no step that answers a next state does (R363). -/
def EndCondition.met (e : EndCondition) (s t : State) : Bool :=
  s.privileged &&
    match e with
    | .machineEcall => s.samplePlatform.executesMachineEcall
    | .atAddress a => t.pc == a

/-- How a run under a step bound comes out (R363). -/
inductive RunOutcome where
  /-- The end condition of a privileged run holds; the end state. -/
  | ended (s : State)
  /-- A terminal run raised: the record, and the state before the raising instruction (R311). -/
  | trapped (record : TrapRecord) (before : State)
  /-- The model has no meaning for the step from this state. -/
  | refused (reason : Refusal) (before : State)
  /-- The step bound is reached first. -/
  | outOfSteps (s : State)
deriving DecidableEq, Repr

/-- A run of at most `n` steps (R363). The end condition is tested after each step and not at the start, so a run that starts
with `pc` at the named address goes on until it comes back there: DESIGN CHOICE, safe. Log 29. -/
def runUntil (e : EndCondition) : Nat → State → RunOutcome
  | 0, s => .outOfSteps s
  | n + 1, s =>
    match step s with
    | .next t => if e.met s t then .ended t else runUntil e n t
    | .fault (.trapped record) => .trapped record s
    | .refused r => .refused r s

/-- An outcome that is no abnormal end: the end condition, the ECALL of R312, or the step bound. -/
def RunOutcome.safe : RunOutcome → Bool
  | .ended _ | .outOfSteps _ => true
  | .trapped record _ => (Fault.trapped record).isNormalEnd
  | .refused _ _ => false

/-- At most `n` steps do not end the run abnormally. -/
def safeRun (e : EndCondition) (n : Nat) (s : State) : Bool := (runUntil e n s).safe

/-! ## Invariants -/

/-- `pc` is a multiple of 4 (R25). -/
def State.pcAligned (s : State) : Prop := s.pc.toNat % 4 = 0

/-- No bit of `v` outside `mask` is set. -/
def within (mask v : Word) : Prop := ∀ k, v.getLsbD k = true → mask.getLsbD k = true

/-- The standard combinations of modes (R323): S only together with U. -/
def standardModes (cfg : Config) : Prop := cfg.hasS = true → cfg.hasU = true

/-- The fields of `mstatus` whose mode or extension is absent are 0, and MPP holds a mode in `MODES`, M without
U-mode (R323, R331). -/
structure Mstatus.Legal (cfg : Config) (f : Mstatus) : Prop where
  userFields : userTraps cfg = false → f.uie = false ∧ f.upie = false
  supervisorFields : cfg.hasS = false →
    f.sie = false ∧ f.spie = false ∧ f.spp = false ∧ f.sum = false ∧ f.mxr = false ∧ f.tvm = false ∧ f.tsr = false
  withoutUser : cfg.hasU = false → f.mprv = false ∧ f.tw = false ∧ f.mpp = .m
  mpp : f.mpp.present cfg = true

/-- The bits no write can set are 0: bits 1-0 of each xepc (R334), MODE of each xtvec is 0 or 1 (R333), the delegation
registers and `mie`, `mip` hold bits that exist only (R337, R338), and `mstatus` is legal (R331). -/
structure CsrFile.Legal (cfg : Config) (c : CsrFile) : Prop where
  mstatus : c.mstatus.Legal cfg
  mepc : c.mepc.toNat % 4 = 0
  sepc : c.sepc.toNat % 4 = 0
  uepc : c.uepc.toNat % 4 = 0
  mtvec : c.mtvec.toNat % 4 < 2
  stvec : c.stvec.toNat % 4 < 2
  utvec : c.utvec.toNat % 4 < 2
  medeleg : within 0xB3FF#64 c.medeleg
  mideleg : within (0x333#64 &&& interruptBits cfg) c.mideleg
  sedeleg : within 0xB1FF#64 c.sedeleg
  sideleg : within 0x111#64 c.sideleg
  mie : within (interruptBits cfg) c.mie
  mip : within (interruptBits cfg) c.mip

/-- The control state is one the hart can be in: standard modes, a mode of `MODES`, legal CSRs. -/
structure State.ControlLegal (s : State) : Prop where
  modes : standardModes s.cfg
  priv : s.priv.present s.cfg = true
  csr : s.csr.Legal s.cfg

/-- Memory has its canonical form. -/
def State.memoryCanonical (s : State) : Prop := s.mem.wf = true

end Sys2Proof.Machine
end

