-- ==== Sys2Proof/Claims.lean ====
section
/-! DEFINITION. The terms the statements of `Certificates/Slice0/Obligations.lean` are written in: encoding layouts as the spec draws them, frames, memory accesses, trap entry and interrupt selection spelled from the rules themselves and not from the model's operations. -/

namespace Sys2Proof.Machine

/-! ## Encoding layouts, bit 31 first (R92 to R95) -/

def layoutR (funct7 : BitVec 7) (rs2 rs1 : Reg) (funct3 : BitVec 3) (rd : Reg) (opcode : BitVec 7) : InstWord :=
  funct7 ++ rs2 ++ rs1 ++ funct3 ++ rd ++ opcode

def layoutI (imm : BitVec 12) (rs1 : Reg) (funct3 : BitVec 3) (rd : Reg) (opcode : BitVec 7) : InstWord :=
  imm ++ rs1 ++ funct3 ++ rd ++ opcode

def layoutShift64 (funct6 : BitVec 6) (shamt : BitVec 6) (rs1 : Reg) (funct3 : BitVec 3) (rd : Reg) (opcode : BitVec 7) :
    InstWord :=
  funct6 ++ shamt ++ rs1 ++ funct3 ++ rd ++ opcode

def layoutS (offset : BitVec 12) (rs2 rs1 : Reg) (funct3 : BitVec 3) (opcode : BitVec 7) : InstWord :=
  offset.extractLsb' 5 7 ++ rs2 ++ rs1 ++ funct3 ++ offset.extractLsb' 0 5 ++ opcode

def layoutB (offset : BitVec 13) (rs2 rs1 : Reg) (funct3 : BitVec 3) (opcode : BitVec 7) : InstWord :=
  offset.extractLsb' 12 1 ++ offset.extractLsb' 5 6 ++ rs2 ++ rs1 ++ funct3 ++ offset.extractLsb' 1 4 ++
    offset.extractLsb' 11 1 ++ opcode

def layoutU (imm : BitVec 20) (rd : Reg) (opcode : BitVec 7) : InstWord := imm ++ rd ++ opcode

def layoutJ (offset : BitVec 21) (rd : Reg) (opcode : BitVec 7) : InstWord :=
  offset.extractLsb' 20 1 ++ offset.extractLsb' 1 10 ++ offset.extractLsb' 11 1 ++ offset.extractLsb' 12 8 ++ rd ++ opcode

def layoutFence (pred succ : BitVec 4) : InstWord := 0b0000#4 ++ pred ++ succ ++ 0b00000000000000001111#20

/-! ## Frames -/

/-- Every integer register reads as before. -/
def SameRegisters (s t : State) : Prop := ∀ r : Reg, t.readX r = s.readX r

/-- Every integer register but `rd` reads as before; `rd` reads `v`, unless it is x0 (R22). -/
def WritesRegister (rd : Reg) (v : Word) (s t : State) : Prop :=
  ∀ r : Reg, t.readX r = if r = rd ∧ r ≠ 0#5 then v else s.readX r

/-- Every byte of memory reads as before, and so does the set S of R66 with its history. -/
def SameMemory (s t : State) : Prop := (∀ a : Word, t.readByte a = s.readByte a) ∧ t.stored = s.stored

/-- Privilege mode, CSRs, parameters, the WFI stall and the counter of free values are as before. -/
def SameControl (s t : State) : Prop :=
  t.priv = s.priv ∧ t.csr = s.csr ∧ t.cfg = s.cfg ∧ t.stalled = s.stalled ∧ t.draws = s.draws

/-- The instruction completes: register `rd` receives `v`, `pc` advances by 4, nothing else changes. -/
def CompletesWith (i : Instr) (s : State) (rd : Reg) (v : Word) : Prop :=
  ∃ t, exec i s = .next t ∧ WritesRegister rd v s t ∧ t.pc = s.pc + 4 ∧ SameMemory s t ∧ SameControl s t

/-- The same with the result given bit by bit. -/
def CompletesBitwise (i : Instr) (s : State) (rd : Reg) (bit : Nat → Bool) : Prop :=
  ∃ v : Word, (∀ k, k < 64 → v.getLsbD k = bit k) ∧ CompletesWith i s rd v

/-- The instruction completes: `pc` becomes `target`, nothing else changes. -/
def CompletesAt (i : Instr) (s : State) (target : Word) : Prop :=
  ∃ t, exec i s = .next t ∧ t.pc = target ∧ SameRegisters s t ∧ SameMemory s t ∧ SameControl s t

/-! ## Numbers (R9, R10) -/

/-- `u(v)` of an integer sum: the 64-bit word congruent to `n`. -/
def wrap64 (n : Int) : Word := BitVec.ofInt 64 n

/-- `sext_64` of the low `w` bits of an integer: its signed residue modulo 2^w. -/
def signedLow (w : Nat) (n : Int) : Word := BitVec.ofInt 64 (Int.bmod n (2 ^ w))

/-- A value with bits 1-0 cleared. -/
def roundDown4 (v : Word) : Word := BitVec.ofNat 64 (v.toNat / 4 * 4)

/-! ## Memory accesses (R52 to R63) -/

/-- Byte `j` of an access at `a`, modulo 2^64. -/
def byteAddr (a : Word) (j : Nat) : Word := a + BitVec.ofNat 64 j

/-- The byte exists as main memory with the permission. -/
def MainByte (s : State) (k : Access) (a : Word) : Prop :=
  ∃ r, regionAt s.cfg a = some r ∧ permitted r k = true ∧ r.kind = .main

/-- The byte does not exist or lacks the permission (R52). -/
def VacantByte (s : State) (k : Access) (a : Word) : Prop := ∀ r, regionAt s.cfg a = some r → permitted r k = false

/-- The byte is in a device region (R52). -/
def DeviceByte (s : State) (a : Word) : Prop := ∃ r, regionAt s.cfg a = some r ∧ r.kind = .device

/-- The alignment check of an `n`-byte access at `a` passes (R58). -/
def AlignmentPasses (s : State) (a : Word) (n : Nat) : Prop := s.cfg.misaligned = .support ∨ a.toNat % n = 0

/-- An `n`-byte access at `a` to main memory with the permission, whose alignment passes. -/
def AccessGranted (s : State) (k : Access) (a : Word) (n : Nat) : Prop :=
  AlignmentPasses s a n ∧ ∀ j, j < n → MainByte s k (byteAddr a j)

/-- The unsigned value of the `n` bytes from `a` up, the lowest address the least significant (R56). -/
def littleEndianValue (s : State) (a : Word) (n : Nat) : Nat :=
  ∑ j ∈ Finset.range n, (s.readByte (byteAddr a j)).toNat * 256 ^ j

/-- What a completed `n`-byte store of `v` at `ea` does (R55): the bytes, S and `pc`; nothing else. -/
def StoreEffect (s t : State) (ea v : Word) (n : Nat) : Prop :=
  (∀ j, j < n → t.readByte (byteAddr ea j) = v.extractLsb' (8 * j) 8) ∧
  (∀ a : Word, (∀ j, j < n → a ≠ byteAddr ea j) →
    t.readByte a = s.readByte a ∧ t.heldContents a = s.heldContents a ∧ t.inStored a = s.inStored a) ∧
  (∀ j, j < n → t.inStored (byteAddr ea j) = true ∧
    t.heldContents (byteAddr ea j) = t.readByte (byteAddr ea j) :: s.heldContents (byteAddr ea j)) ∧
  SameRegisters s t ∧ SameControl s t ∧ t.pc = s.pc + 4

/-! ## Traps (R310, R311, R340, R341) -/

/-- Bit `c` of a delegation register that exists under `present`; one that does not exist counts as 0 (R340). -/
def delegated (present : Bool) (register : Word) (c : Nat) : Prop := present = true ∧ register.getLsbD c = true

/-- `medeleg[c] = 1`, and so for the other three (R337). -/
def InMedeleg (s : State) (c : Nat) : Prop := delegated (machineDelegation s.cfg) s.csr.medeleg c
def InMideleg (s : State) (c : Nat) : Prop := delegated (machineDelegation s.cfg) s.csr.mideleg c
def InSedeleg (s : State) (c : Nat) : Prop := delegated (supervisorDelegation s.cfg) s.csr.sedeleg c
def InSideleg (s : State) (c : Nat) : Prop := delegated (supervisorDelegation s.cfg) s.csr.sideleg c

/-- Mode `y` handles an exception with code `c` (R340), clause by clause. -/
structure HandlesException (s : State) (c : Nat) (y : Mode) : Prop where
  fromMachine : s.priv = .m → y = .m
  notDelegated : ¬ InMedeleg s c → y = .m
  fromSupervisor : s.priv = .s → InMedeleg s c → s.cfg.hasS = true → y = .s
  fromUserToUser : s.priv = .u → InMedeleg s c → s.cfg.hasS = true → s.cfg.hasN = true ∧ InSedeleg s c → y = .u
  fromUserToSupervisor : s.priv = .u → InMedeleg s c → s.cfg.hasS = true → ¬ (s.cfg.hasN = true ∧ InSedeleg s c) → y = .s
  withoutSupervisor : s.priv = .u → InMedeleg s c → s.cfg.hasS = false → y = .u

/-- The cause register's value: the code, and bit 63 for an interrupt (R335). -/
def causeValue (interrupt : Bool) (c : Nat) : Word := BitVec.ofNat 64 ((if interrupt then 2 ^ 63 else 0) + c)

/-- Where a trap with `ytvec` = `tvec` continues (R333, R341). -/
def vectorAddress (tvec : Word) (interrupt : Bool) (c : Nat) : Word :=
  roundDown4 tvec + (if interrupt = true ∧ tvec.toNat % 4 ≠ 0 then BitVec.ofNat 64 (4 * c) else 0)

/-- The CSRs and the `pc` after a trap from `s` into mode `y` (R341; MPP is hardwired to M without U-mode, R323). -/
def TrapRegisters (s t : State) (interrupt : Bool) (c : Nat) (tval epc : Word) : Mode → Prop
  | .m =>
    t.csr = { s.csr with
      mepc := roundDown4 epc, mcause := causeValue interrupt c, mtval := tval
      mstatus := { s.csr.mstatus with
        mpie := s.csr.mstatus.mie, mie := false, mpp := if s.cfg.hasU = true then s.priv else .m } } ∧
    t.pc = vectorAddress s.csr.mtvec interrupt c
  | .s =>
    t.csr = { s.csr with
      sepc := roundDown4 epc, scause := causeValue interrupt c, stval := tval
      mstatus := { s.csr.mstatus with spie := s.csr.mstatus.sie, sie := false, spp := decide (s.priv = .s) } } ∧
    t.pc = vectorAddress s.csr.stvec interrupt c
  | .u =>
    t.csr = { s.csr with
      uepc := roundDown4 epc, ucause := causeValue interrupt c, utval := tval
      mstatus := { s.csr.mstatus with upie := s.csr.mstatus.uie, uie := false } } ∧
    t.pc = vectorAddress s.csr.utvec interrupt c

/-- Trap entry from `s` into mode `y` leaves the machine in `t` (R341), and nothing else changes. -/
def EntersTrap (s t : State) (interrupt : Bool) (c : Nat) (tval epc : Word) (y : Mode) : Prop :=
  t.priv = y ∧ TrapRegisters s t interrupt c tval epc y ∧ SameRegisters s t ∧ SameMemory s t ∧ t.cfg = s.cfg ∧
    t.stalled = s.stalled ∧ t.draws = s.draws

/-- The outcome is that of raising `e` with value `info` at `s` (R310, R311, R313): the trap record under `terminal`, trap
entry under `privileged`. -/
def Raises (o : Outcome) (s : State) (e : Exc) (info : Word) : Prop :=
  (s.cfg.trapModel = .terminal →
    o = .fault (.trapped { exc := e, code := e.code, info := info, pc := s.pc, mode := s.priv })) ∧
  (s.cfg.trapModel = .privileged →
    ∃ t y, o = .next t ∧ HandlesException s e.code y ∧ EntersTrap s t false e.code info s.pc y)

/-- The instruction raises `IllegalInstruction` with its own word as the recorded value (R304). -/
def RaisesIllegal (i : Instr) (s : State) : Prop := Raises (exec i s) s .illegalInstruction ((encode i).setWidth 64)

/-! ## Instruction rules -/

/-- The word is the encoding of the instruction, read both ways (R110). -/
def Encodes (w : InstWord) (i : Instr) : Prop := encode i = w ∧ decodeWord w = .ok i

/-- The rule of a load of `n` bytes (R54, R58 to R62): alignment is checked first, then that every byte is readable; then
`rd` receives the value of the bytes, signed or not. -/
structure LoadRule (i : Instr) (n : Nat) (signed : Bool) (rd rs1 : Reg) (offset : BitVec 12) : Prop where
  completes : ∀ s : State, AccessGranted s .read (effectiveAddress (s.readX rs1) offset) n →
    CompletesWith i s rd
      (if signed then signedLow (8 * n) (littleEndianValue s (effectiveAddress (s.readX rs1) offset) n)
      else wrap64 (littleEndianValue s (effectiveAddress (s.readX rs1) offset) n))
  misaligned : ∀ s : State, s.cfg.misaligned = .trap → (effectiveAddress (s.readX rs1) offset).toNat % n ≠ 0 →
    Raises (exec i s) s .loadAddressMisaligned (effectiveAddress (s.readX rs1) offset)
  vacant : ∀ s : State, AlignmentPasses s (effectiveAddress (s.readX rs1) offset) n →
    (∃ j, j < n ∧ VacantByte s .read (byteAddr (effectiveAddress (s.readX rs1) offset) j)) →
    Raises (exec i s) s .loadAccessFault (effectiveAddress (s.readX rs1) offset)

/-- The rule of a store of the low `n` bytes of `x[rs2]` (R55, R58 to R62). A store that raises writes no byte: `Raises`
leaves memory as it was. -/
structure StoreRule (i : Instr) (n : Nat) (rs2 rs1 : Reg) (offset : BitVec 12) : Prop where
  completes : ∀ s : State, AccessGranted s .write (effectiveAddress (s.readX rs1) offset) n →
    ∃ t, exec i s = .next t ∧ StoreEffect s t (effectiveAddress (s.readX rs1) offset) (s.readX rs2) n
  misaligned : ∀ s : State, s.cfg.misaligned = .trap → (effectiveAddress (s.readX rs1) offset).toNat % n ≠ 0 →
    Raises (exec i s) s .storeAddressMisaligned (effectiveAddress (s.readX rs1) offset)
  vacant : ∀ s : State, AlignmentPasses s (effectiveAddress (s.readX rs1) offset) n →
    (∃ j, j < n ∧ VacantByte s .write (byteAddr (effectiveAddress (s.readX rs1) offset) j)) →
    Raises (exec i s) s .storeAccessFault (effectiveAddress (s.readX rs1) offset)

/-- The rule of a jump to `target` with link register `rd` (R270, R271, R279). -/
structure JumpRule (i : Instr) (rd : Reg) (target : State → Word) : Prop where
  completes : ∀ s : State, (target s).toNat % 4 = 0 →
    ∃ t, exec i s = .next t ∧ WritesRegister rd (s.pc + 4) s t ∧ t.pc = target s ∧ SameMemory s t ∧ SameControl s t
  misaligned : ∀ s : State, (target s).toNat % 4 ≠ 0 → Raises (exec i s) s .instructionAddressMisaligned (target s)

/-- The target of JAL and of a branch: `pc` plus the signed offset, modulo 2^64 (R27). -/
def relativeTarget {n : Nat} (s : State) (offset : BitVec n) : Word := wrap64 (s.pc.toNat + offset.toInt)

/-- The rule of a conditional branch (R272, R279). -/
structure BranchRule (i : Instr) (holds : State → Prop) (offset : BitVec 13) : Prop where
  notTaken : ∀ s : State, ¬ holds s → CompletesAt i s (s.pc + 4)
  taken : ∀ s : State, holds s → (relativeTarget s offset).toNat % 4 = 0 → CompletesAt i s (relativeTarget s offset)
  misaligned : ∀ s : State, holds s → (relativeTarget s offset).toNat % 4 ≠ 0 →
    Raises (exec i s) s .instructionAddressMisaligned (relativeTarget s offset)

/-- A trap return from `s` leaves the machine in `t`: mode, `pc`, `mstatus`; nothing else changes (R342). -/
def ReturnsTo (s t : State) (mode : Mode) (epc : Word) (mstatus : Mstatus) : Prop :=
  t.priv = mode ∧ t.pc = roundDown4 epc ∧ t.csr = { s.csr with mstatus := mstatus } ∧ SameRegisters s t ∧
    SameMemory s t ∧ t.cfg = s.cfg ∧ t.stalled = s.stalled ∧ t.draws = s.draws

/-- What WFI leaves alone, whether it waits or completes (R235). -/
def WfiKeeps (s t : State) : Prop :=
  SameRegisters s t ∧ SameMemory s t ∧ t.csr = s.csr ∧ t.priv = s.priv ∧ t.cfg = s.cfg

/-- The data access of an instruction (R53): what it needs permission for, its bytes, its base and its offset. -/
def dataAccess : Instr → Option (Access × Nat × Reg × BitVec 12)
  | .lb _ rs1 o | .lbu _ rs1 o => some (.read, 1, rs1, o)
  | .lh _ rs1 o | .lhu _ rs1 o => some (.read, 2, rs1, o)
  | .lw _ rs1 o | .lwu _ rs1 o => some (.read, 4, rs1, o)
  | .ld _ rs1 o => some (.read, 8, rs1, o)
  | .sb _ rs1 o => some (.write, 1, rs1, o)
  | .sh _ rs1 o => some (.write, 2, rs1, o)
  | .sw _ rs1 o => some (.write, 4, rs1, o)
  | .sd _ rs1 o => some (.write, 8, rs1, o)
  | _ => none

/-- The instructions that execute alike in every mode (R321): every file but those of the CSR and system instructions. -/
def modeIndependent : Instr → Bool
  | .csrrw .. | .csrrs .. | .csrrc .. | .csrrwi .. | .csrrsi .. | .csrrci .. => false
  | .ecall | .ebreak | .uret | .sret | .mret | .wfi | .sfenceVma .. => false
  | _ => true

/-! ## Illegal words (R111) -/

/-- The words R111 and R112 list as covered: a length other than 32 bits, the all-ones word, a major opcode absent from
table R106, a row "none" or no row of table R107, a SYSTEM word not in table R108, FENCE and FENCE.I with a nonzero fixed
field, a shift with a wrong function code, `inst[25]` = 1 in a word shift. -/
inductive ListedIllegal (w : InstWord) : Prop
  | length : w.extractLsb' 0 2 ≠ 3#2 → ListedIllegal w
  | allOnes : w = 0xFFFFFFFF#32 → ListedIllegal w
  | major : w.extractLsb' 0 7 ∉ [0x03#7, 0x0F#7, 0x13#7, 0x17#7, 0x1B#7, 0x23#7, 0x33#7, 0x37#7, 0x3B#7, 0x63#7, 0x67#7,
      0x6F#7, 0x73#7] → ListedIllegal w
  | minor (op : BitVec 7) (f3 : BitVec 3) : (op, f3) ∈ [(0x03#7, 7#3), (0x0F#7, 2#3), (0x0F#7, 3#3), (0x0F#7, 4#3),
      (0x0F#7, 5#3), (0x0F#7, 6#3), (0x0F#7, 7#3), (0x1B#7, 2#3), (0x1B#7, 3#3), (0x1B#7, 4#3), (0x1B#7, 6#3),
      (0x1B#7, 7#3), (0x23#7, 4#3), (0x23#7, 5#3), (0x23#7, 6#3), (0x23#7, 7#3), (0x3B#7, 2#3), (0x3B#7, 3#3),
      (0x3B#7, 4#3), (0x3B#7, 6#3), (0x3B#7, 7#3), (0x63#7, 2#3), (0x63#7, 3#3), (0x67#7, 1#3), (0x67#7, 2#3),
      (0x67#7, 3#3), (0x67#7, 4#3), (0x67#7, 5#3), (0x67#7, 6#3), (0x67#7, 7#3), (0x73#7, 4#3)] →
      w.extractLsb' 0 7 = op → w.extractLsb' 12 3 = f3 → ListedIllegal w
  | registerForm : w.extractLsb' 0 7 = 0x33#7 → w.extractLsb' 25 7 ≠ 0x00#7 →
      ¬ (w.extractLsb' 25 7 = 0x20#7 ∧ (w.extractLsb' 12 3 = 0#3 ∨ w.extractLsb' 12 3 = 5#3)) → ListedIllegal w
  | wordRegisterForm : w.extractLsb' 0 7 = 0x3B#7 → w.extractLsb' 25 7 ≠ 0x00#7 →
      ¬ (w.extractLsb' 25 7 = 0x20#7 ∧ (w.extractLsb' 12 3 = 0#3 ∨ w.extractLsb' 12 3 = 5#3)) → ListedIllegal w
  | shiftLeft : w.extractLsb' 0 7 = 0x13#7 → w.extractLsb' 12 3 = 1#3 → w.extractLsb' 26 6 ≠ 0x00#6 → ListedIllegal w
  | shiftRight : w.extractLsb' 0 7 = 0x13#7 → w.extractLsb' 12 3 = 5#3 → w.extractLsb' 26 6 ≠ 0x00#6 →
      w.extractLsb' 26 6 ≠ 0x10#6 → ListedIllegal w
  | wordShiftReserved (f3 : BitVec 3) : w.extractLsb' 0 7 = 0x1B#7 → f3 = 1#3 ∨ f3 = 5#3 → w.extractLsb' 12 3 = f3 →
      w.getLsbD 25 = true → ListedIllegal w
  | wordShiftLeft : w.extractLsb' 0 7 = 0x1B#7 → w.extractLsb' 12 3 = 1#3 → w.extractLsb' 25 7 ≠ 0x00#7 → ListedIllegal w
  | wordShiftRight : w.extractLsb' 0 7 = 0x1B#7 → w.extractLsb' 12 3 = 5#3 → w.extractLsb' 25 7 ≠ 0x00#7 →
      w.extractLsb' 25 7 ≠ 0x20#7 → ListedIllegal w
  | fence : w.extractLsb' 0 7 = 0x0F#7 → w.extractLsb' 12 3 = 0#3 →
      (w.extractLsb' 28 4 ≠ 0#4 ∨ w.extractLsb' 15 5 ≠ 0#5 ∨ w.extractLsb' 7 5 ≠ 0#5) → ListedIllegal w
  | fenceI : w.extractLsb' 0 7 = 0x0F#7 → w.extractLsb' 12 3 = 1#3 →
      (w.extractLsb' 15 17 ≠ 0#17 ∨ w.extractLsb' 7 5 ≠ 0#5) → ListedIllegal w
  | system : w.extractLsb' 0 7 = 0x73#7 → w.extractLsb' 12 3 = 0#3 →
      w ∉ [0x00000073#32, 0x00100073#32, 0x00200073#32, 0x10200073#32, 0x30200073#32, 0x10500073#32] →
      ¬ (w.extractLsb' 25 7 = 0x09#7 ∧ w.extractLsb' 7 5 = 0#5) → ListedIllegal w

/-! ## Interrupts (R343) -/

/-- Mode `y` handles interrupt `c`, from `mideleg` and `sideleg` alone (R343). -/
def HandlesInterrupt (s : State) (c : Irq) (y : Mode) : Prop :=
  (¬ InMideleg s c.code ∧ y = .m) ∨
  (InMideleg s c.code ∧ s.cfg.hasS = true ∧ ¬ (s.cfg.hasN = true ∧ InSideleg s c.code) ∧ y = .s) ∨
  (InMideleg s c.code ∧ ¬ (s.cfg.hasS = true ∧ ¬ (s.cfg.hasN = true ∧ InSideleg s c.code)) ∧ y = .u)

/-- Pending and individually enabled (R343). -/
def PendingEnabled (s : State) (c : Irq) : Prop :=
  s.csr.mip.getLsbD c.code = true ∧ s.csr.mie.getLsbD c.code = true

/-- Interrupt `c` with handler mode `y` is takeable (R343). -/
def Takeable (s : State) (c : Irq) (y : Mode) : Prop :=
  s.cfg.trapModel = .privileged ∧ PendingEnabled s c ∧ HandlesInterrupt s c y ∧
    (s.priv.code < y.code ∨
      s.priv = y ∧ (match y with
        | .m => s.csr.mstatus.mie = true
        | .s => s.csr.mstatus.sie = true
        | .u => s.csr.mstatus.uie = true))

/-- The place of an interrupt in the order of R343: MEI, MSI, MTI, SEI, SSI, STI, UEI, USI, UTI. -/
def irqRank : Irq → Nat
  | .mei => 0
  | .msi => 1
  | .mti => 2
  | .sei => 3
  | .ssi => 4
  | .sti => 5
  | .uei => 6
  | .usi => 7
  | .uti => 8

/-- No interrupt is takeable. -/
def NoneTakeable (s : State) : Prop := ∀ c y, ¬ Takeable s c y

/-! ## Fetching (R64 to R66) -/

/-- The four bytes at `pc` are executable main memory. -/
def FetchGranted (s : State) : Prop := ∀ j, j < 4 → MainByte s .execute (byteAddr s.pc j)

/-- None of the four bytes at `pc` has been stored to since the last FENCE.I (R66). -/
def FetchSynchronised (s : State) : Prop := ∀ j, j < 4 → s.inStored (byteAddr s.pc j) = false

/-- The word the four bytes at `pc` hold, little-endian (R64). -/
def wordAtPc (s : State) : InstWord :=
  s.readByte (byteAddr s.pc 3) ++ s.readByte (byteAddr s.pc 2) ++ s.readByte (byteAddr s.pc 1) ++ s.readByte (byteAddr s.pc 0)

/-- The word a fetch at `pc` returns, from the byte each of its four fetches returns, little-endian (R64, R66). -/
def fetchedWord (s : State) : InstWord :=
  s.fetchByte (byteAddr s.pc 3) ++ s.fetchByte (byteAddr s.pc 2) ++ s.fetchByte (byteAddr s.pc 1) ++
    s.fetchByte (byteAddr s.pc 0)

/-- The hart is about to fetch: no WFI in progress, no interrupt takeable, the bytes at `pc` executable and in step with
memory. -/
def ReadyToFetch (s : State) : Prop :=
  s.stalled = false ∧ NoneTakeable s ∧ FetchGranted s ∧ FetchSynchronised s

/-! ## CSR instructions (R211, R220) -/

/-- `CSRCheck(c, w)` passes for the CSR `c` (R211). -/
def CsrAllowed (s : State) (c : Csr) (writes : Bool) : Prop :=
  s.cfg.trapModel = .privileged ∧ c.present s.cfg = true ∧ (c.number.extractLsb' 8 2).toNat ≤ s.priv.code ∧
    (writes = true → c.number.extractLsb' 10 2 ≠ 3#2) ∧ ¬ (c = .satp ∧ s.priv = .s ∧ s.csr.mstatus.tvm = true)

/-- `CSRCheck(n, w)` fails (R211): (a) the number names no CSR of `CSRS`, (b) it belongs to a more privileged mode, (c)
it is read-only and would be written, (d) it is `satp` in S-mode with TVM = 1. -/
def CsrDenied (s : State) (n : CsrNumber) (writes : Bool) : Prop :=
  (s.cfg.trapModel = .terminal ∨ ∀ c : Csr, c.number = n → c.present s.cfg = false) ∨
  s.priv.code < (n.extractLsb' 8 2).toNat ∨
  (writes = true ∧ n.extractLsb' 10 2 = 3#2) ∨
  (n = 0x180#12 ∧ s.priv = .s ∧ s.csr.mstatus.tvm = true)

/-- A CSR instruction on `c` completes: `rd` receives the old value; the CSR file is that after `CSRWrite(c, v)`, or the
old one when the instruction does not write; `pc` advances; nothing else changes. -/
def CsrCompletes (i : Instr) (s : State) (c : Csr) (rd : Reg) (written : Option Word) : Prop :=
  ∃ t, exec i s = .next t ∧ WritesRegister rd (s.csrRead c) s t ∧
    t.csr = (match written with
      | some v => (s.csrWrite c v).csr
      | none => s.csr) ∧
    t.pc = s.pc + 4 ∧ SameMemory s t ∧ t.priv = s.priv ∧ t.cfg = s.cfg ∧ t.stalled = s.stalled ∧ t.draws = s.draws

/-- The rule of a CSR instruction (R213 to R218): for the CSR numbered `n` when `CSRCheck` passes, and when it fails.
`value` is what it writes for an
old value, if it writes. -/
structure CsrRule (i : Instr) (s : State) (n : CsrNumber) (rd : Reg) (writes : Bool) (value : Word → Word) : Prop where
  completes : ∀ c : Csr, c.number = n → CsrAllowed s c writes →
    CsrCompletes i s c rd (if writes then some (value (s.csrRead c)) else none)
  denied : CsrDenied s n writes → RaisesIllegal i s

/-- The writable bits of each CSR as R331 to R339 give them, the fields MPP of `mstatus` and MODE of the trap vectors
apart. TW is writable with U-mode only, as R323 says (log 18). A view writes what it shows and its register can take (R332, R338). -/
def writableBits (s : State) : Csr → Nat → Prop
  | .mstatus, k =>
    k = 3 ∨ k = 7 ∨ (userTraps s.cfg = true ∧ (k = 0 ∨ k = 4)) ∨
      (s.cfg.hasS = true ∧ (k = 1 ∨ k = 5 ∨ k = 8 ∨ k = 18 ∨ k = 19 ∨ k = 20 ∨ k = 22)) ∨
      (s.cfg.hasU = true ∧ (k = 17 ∨ k = 21))
  | .sstatus, k =>
    (userTraps s.cfg = true ∧ (k = 0 ∨ k = 4)) ∨
      (s.cfg.hasS = true ∧ (k = 1 ∨ k = 5 ∨ k = 8 ∨ k = 18 ∨ k = 19))
  | .ustatus, k => userTraps s.cfg = true ∧ (k = 0 ∨ k = 4)
  | .mtvec, k | .stvec, k | .utvec, k => 2 ≤ k
  | .mepc, k | .sepc, k | .uepc, k => 2 ≤ k
  | .mcause, _ | .scause, _ | .ucause, _ => True
  | .mtval, _ | .stval, _ | .utval, _ => True
  | .mscratch, _ | .sscratch, _ | .uscratch, _ => True
  | .medeleg, k => k ≤ 9 ∨ k = 12 ∨ k = 13 ∨ k = 15
  | .sedeleg, k => k ≤ 8 ∨ k = 12 ∨ k = 13 ∨ k = 15
  | .mideleg, k | .mip, k =>
    (s.cfg.hasS = true ∧ (k = 1 ∨ k = 5 ∨ k = 9)) ∨ (userTraps s.cfg = true ∧ (k = 0 ∨ k = 4 ∨ k = 8))
  | .sideleg, k => k = 0 ∨ k = 4 ∨ k = 8
  | .mie, k =>
    k = 3 ∨ k = 7 ∨ k = 11 ∨ (s.cfg.hasS = true ∧ (k = 1 ∨ k = 5 ∨ k = 9)) ∨
      (userTraps s.cfg = true ∧ (k = 0 ∨ k = 4 ∨ k = 8))
  | .sie, k => InMideleg s k ∧ (k = 0 ∨ k = 1 ∨ k = 4 ∨ k = 5 ∨ k = 8 ∨ k = 9)
  | .sip, k => InMideleg s k ∧ (k = 0 ∨ k = 1 ∨ k = 8)
  | .uie, k => InMideleg s k ∧ InSideleg s k ∧ (k = 0 ∨ k = 4 ∨ k = 8)
  | .uip, k => InMideleg s k ∧ InSideleg s k ∧ k = 0
  | .satp, _ | .misa, _ | .mvendorid, _ | .marchid, _ | .mimpid, _ | .mhartid, _ => False

/-- The fields that accept only some values (R331, R333): MPP of `mstatus`, MODE of the trap vectors. -/
def legalisedField : Csr → Nat → Prop
  | .mstatus, k => k = 11 ∨ k = 12
  | .mtvec, k | .stvec, k | .utvec, k => k = 0 ∨ k = 1
  | _, _ => False

/-- At bit `k`, what a write of `v` through a view leaves in `t`: the register the view shows takes the written bit where it
is writable through the view and keeps it elsewhere, the other register keeps every bit (R212, R338). -/
def WritesThroughView (s t : State) (shown other : Csr) (v : Word) (k : Nat) (writable : Prop) : Prop :=
  (writable → (t.csrRead shown).getLsbD k = v.getLsbD k) ∧
  (¬ writable → (t.csrRead shown).getLsbD k = (s.csrRead shown).getLsbD k) ∧
  (t.csrRead other).getLsbD k = (s.csrRead other).getLsbD k

/-- Which CSRs show the storage a CSR writes, or are shown through it: a write of the first may change what a read of the
second answers (R332, R337, R338). -/
def showsWriteOf : Csr → Csr → Bool
  | .mstatus, c | .sstatus, c | .ustatus, c => c == .mstatus || c == .sstatus || c == .ustatus
  | .mie, c | .sie, c | .uie, c => c == .mie || c == .sie || c == .uie
  | .mip, c | .sip, c | .uip, c => c == .mip || c == .sip || c == .uip
  | .mideleg, c => c == .mideleg || c == .sie || c == .sip || c == .uie || c == .uip
  | .sideleg, c => c == .sideleg || c == .uie || c == .uip
  | c, d => c == d

/-! ## What an instruction names -/

/-- The destination register of an instruction that has an `rd` field (R23). -/
def destination : Instr → Option Reg
  | .addiw rd .. | .slliw rd .. | .srliw rd .. | .sraiw rd .. | .addw rd .. | .subw rd .. | .sllw rd .. | .srlw rd ..
  | .sraw rd .. => some rd
  | .lwu rd .. | .ld rd .. | .lb rd .. | .lh rd .. | .lw rd .. | .lbu rd .. | .lhu rd .. => some rd
  | .lui rd .. | .auipc rd .. | .addi rd .. | .slti rd .. | .sltiu rd .. | .xori rd .. | .ori rd .. | .andi rd ..
  | .slli rd .. | .srli rd .. | .srai rd .. => some rd
  | .add rd .. | .sub rd .. | .sll rd .. | .slt rd .. | .sltu rd .. | .xor rd .. | .srl rd .. | .sra rd .. | .or rd ..
  | .and rd .. => some rd
  | .csrrw rd .. | .csrrs rd .. | .csrrc rd .. | .csrrwi rd .. | .csrrsi rd .. | .csrrci rd .. => some rd
  | .jal rd .. | .jalr rd .. => some rd
  | .sd .. | .sb .. | .sh .. | .sw .. => none
  | .beq .. | .bne .. | .blt .. | .bge .. | .bltu .. | .bgeu .. => none
  | .fence .. | .fenceI | .ecall | .ebreak | .uret | .sret | .mret | .wfi | .sfenceVma .. => none

/-- The stores (R33). -/
def isStore : Instr → Bool
  | .sb .. | .sh .. | .sw .. | .sd .. => true
  | _ => false

/-- The trap returns (R322). -/
def isTrapReturn : Instr → Bool
  | .uret | .sret | .mret => true
  | _ => false

end Sys2Proof.Machine
end

