-- ==== Sys2Proof/Certificates/Slice0/Obligations.lean ====
section
/-! DEFINITION. The statements for the provers, in the terms of `Sys2Proof/Claims.lean`. Each docstring names the rules of the spec it formalises. -/

open Sys2Proof Sys2Proof.Machine

/-! ## Encoding -/

/-- Decoding the word of a well-formed instruction gives the instruction, alone and from bytes in memory order. -/
def Obligations.DecodeInvertsEncode : Prop :=
  ∀ i : Instr, i.wellFormed = true →
    decodeWord (encode i) = .ok i ∧
    ∀ rest : List Byte,
      decode (byteOfWord (encode i) 0 :: byteOfWord (encode i) 1 :: byteOfWord (encode i) 2 :: byteOfWord (encode i) 3 ::
        rest) = .ok (i, rest)

/-- A word that decodes is the encoding of what it decodes to, which is well-formed: no bit of a word is dropped. -/
def Obligations.EncodeInvertsDecode : Prop :=
  ∀ (w : InstWord) (i : Instr), decodeWord w = .ok i → encode i = w ∧ i.wellFormed = true

/-- R110: no word matches two rows of the opcode table; a row that matches gives the instruction; a word no row matches is
no instruction. -/
def Obligations.OneRowMatchesAWord : Prop :=
  (∀ w : InstWord, opcodeTable.Pairwise (fun a b => ¬ (a.accepts w = true ∧ b.accepts w = true))) ∧
  (∀ (w : InstWord) (row : OpcodeRow), row ∈ opcodeTable → row.accepts w = true → decodeWord w = .ok (row.build w)) ∧
  (∀ w : InstWord, (∀ row ∈ opcodeTable, row.accepts w = false) → ∃ e, decodeWord w = .error e)

/-- R111, R112: a fetched word that no row matches raises `IllegalInstruction` with the word, cause code 2; and no row
matches any of the words that R111 and R112 list. -/
def Obligations.UnmatchedWordIsIllegal : Prop :=
  (∀ s : State, ReadyToFetch s.samplePlatform →
    (∀ row ∈ opcodeTable, row.accepts (wordAtPc s.samplePlatform) = false) →
    Raises (step s) s.samplePlatform .illegalInstruction ((wordAtPc s.samplePlatform).setWidth 64)) ∧
  Exc.illegalInstruction.code = 2 ∧
  (∀ w : InstWord, ListedIllegal w → ∀ row ∈ opcodeTable, row.accepts w = false)

/-- Words written out from the encodings of the spec decode to the instructions they stand for. -/
def Obligations.SpecWordsDecode : Prop :=
  decodeWord 0x0013029B#32 = .ok (.addiw 5#5 6#5 1#12) ∧
  decodeWord 0x407302B3#32 = .ok (.sub 5#5 6#5 7#5) ∧
  decodeWord 0x43F35293#32 = .ok (.srai 5#5 6#5 63#6) ∧
  decodeWord 0xFF836283#32 = .ok (.lwu 5#5 6#5 0xFF8#12) ∧
  decodeWord 0xFE733C23#32 = .ok (.sd 7#5 6#5 0xFF8#12) ∧
  decodeWord 0xFF9FF0EF#32 = .ok (.jal 1#5 0x1FFFF8#21) ∧
  decodeWord 0x007310E3#32 = .ok (.bne 6#5 7#5 0x800#13) ∧
  decodeWord 0x340FD2F3#32 = .ok (.csrrwi 5#5 0x340#12 31#5)

/-! ## The step -/

/-- R367: when the hart is about to fetch and the bytes at `pc` hold the word of an instruction, the step is `exec` of
that instruction, after the platform's lines are sampled, which changes nothing when they are steady (R338; log 13). When
one of the bytes is in the set S, the step runs, or raises `IllegalInstruction` for, the word made of the byte that each of
the four fetches returns (R64, R66; which content that is, is free, log 10), with one more free value drawn (log 21). -/
def Obligations.StepRunsDecodedInstruction : Prop :=
  ∀ (s : State) (i : Instr),
    (ReadyToFetch s.samplePlatform → decodeWord (wordAtPc s.samplePlatform) = .ok i → step s = exec i s.samplePlatform) ∧
    (s.cfg.platform = .steady → ReadyToFetch s → decodeWord (wordAtPc s) = .ok i → step s = exec i s) ∧
    (s.samplePlatform.stalled = false → NoneTakeable s.samplePlatform → FetchGranted s.samplePlatform →
      ¬ FetchSynchronised s.samplePlatform →
      (decodeWord (fetchedWord s.samplePlatform) = .ok i →
        step s = exec i { s.samplePlatform with draws := s.samplePlatform.draws + 1 }) ∧
      ((∀ row ∈ opcodeTable, row.accepts (fetchedWord s.samplePlatform) = false) →
        Raises (step s) { s.samplePlatform with draws := s.samplePlatform.draws + 1 } .illegalInstruction
          ((fetchedWord s.samplePlatform).setWidth 64)))

/-- R65: a fetch with a byte that is vacant for execution raises `InstructionAccessFault(pc)`, cause code 1, and no
instruction executes. -/
def Obligations.VacantFetchRaises : Prop :=
  Exc.instructionAccessFault.code = 1 ∧
  ∀ s : State, s.samplePlatform.stalled = false → NoneTakeable s.samplePlatform →
    (∃ j, j < 4 ∧ VacantByte s.samplePlatform .execute (byteAddr s.samplePlatform.pc j)) →
    Raises (step s) s.samplePlatform .instructionAccessFault s.pc

/-- R63: an access to a device region is outside the model and is refused by name: fetch, load and store. Log 16. -/
def Obligations.DeviceAccessIsRefused : Prop :=
  (∀ s : State, s.samplePlatform.stalled = false → NoneTakeable s.samplePlatform →
    (∀ j, j < 4 → ¬ VacantByte s.samplePlatform .execute (byteAddr s.samplePlatform.pc j)) →
    (∃ j, j < 4 ∧ DeviceByte s.samplePlatform (byteAddr s.samplePlatform.pc j)) →
    step s = .refused (.deviceFetch s.pc)) ∧
  (∀ (s : State) (i : Instr) (k : Access) (n : Nat) (rs1 : Reg) (offset : BitVec 12),
    dataAccess i = some (k, n, rs1, offset) →
    AlignmentPasses s (effectiveAddress (s.readX rs1) offset) n →
    (∀ j, j < n → ¬ VacantByte s k (byteAddr (effectiveAddress (s.readX rs1) offset) j)) →
    (∃ j, j < n ∧ DeviceByte s (byteAddr (effectiveAddress (s.readX rs1) offset) j)) →
    exec i s = .refused (.deviceAccess (effectiveAddress (s.readX rs1) offset)))

/-- R66: a fetch of a byte not stored to since the last FENCE.I returns its current content, any other fetch returns a
content the byte has held since; which one is a free value. Log 10. -/
def Obligations.FetchedByteIsACandidate : Prop :=
  ∀ (s : State) (a : Word),
    (s.inStored a = false → s.fetchByte a = s.readByte a) ∧
    (s.inStored a = true → s.fetchByte a ∈ s.heldContents a) ∧
    s.readByte a ∈ s.heldContents a

/-- R338: sampling the platform's inputs changes MSIP, MTIP and MEIP at most, and nothing when the lines are steady or
the trap model is terminal; drawn lines under privileged give the three bits the value drawn, a free one, and use up one
draw. The two kinds of platform are the model's, log 13. -/
def Obligations.PlatformDrivesThreeBits : Prop :=
  ∀ s : State,
    (s.cfg.platform = .steady ∨ s.cfg.trapModel = .terminal → s.samplePlatform = s) ∧
    ∃ (mip : Word) (draws : Nat),
      s.samplePlatform = { s with csr := { s.csr with mip := mip }, draws := draws } ∧
      (∀ k, k ≠ 3 → k ≠ 7 → k ≠ 11 → mip.getLsbD k = s.csr.mip.getLsbD k) ∧
      (s.cfg.platform = .drawn → s.cfg.trapModel = .privileged →
        draws = s.draws + 1 ∧
          ∀ k, k = 3 ∨ k = 7 ∨ k = 11 → mip.getLsbD k = (Config.freePlatformLines s.draws).getLsbD k)

/-- A hart stalled in WFI goes on with the WFI and fetches nothing. How the stall is held is the model's, log 11. -/
def Obligations.StalledHartContinuesWfi : Prop :=
  ∀ s : State, s.samplePlatform.stalled = true → step s = exec .wfi s.samplePlatform

/-- R362: a word loaded at `pc` from outside is the one the next step runs. That a program is loaded so is the model's,
log 22. -/
def Obligations.LoadedWordRunsNext : Prop :=
  ∀ (s : State) (w : InstWord) (i : Instr), s.cfg.platform = .steady → NoneTakeable s → FetchGranted s →
    decodeWord w = .ok i → step (s.loadAtPc w) = exec i (s.loadAtPc w)

/-! ## Word arithmetic -/

/-- R130, R134, R135: ADDIW, ADDW and SUBW write the low 32 bits of the sum or difference, sign-extended. -/
def Obligations.WordSumsComplete : Prop :=
  ∀ (s : State) (rd rs1 rs2 : Reg) (imm : BitVec 12),
    (Encodes (layoutI imm rs1 0b000#3 rd 0b0011011#7) (.addiw rd rs1 imm) ∧
      CompletesWith (.addiw rd rs1 imm) s rd (signedLow 32 ((s.readX rs1).toInt + imm.toInt))) ∧
    (Encodes (layoutR 0b0000000#7 rs2 rs1 0b000#3 rd 0b0111011#7) (.addw rd rs1 rs2) ∧
      CompletesWith (.addw rd rs1 rs2) s rd (signedLow 32 ((s.readX rs1).toInt + (s.readX rs2).toInt))) ∧
    (Encodes (layoutR 0b0100000#7 rs2 rs1 0b000#3 rd 0b0111011#7) (.subw rd rs1 rs2) ∧
      CompletesWith (.subw rd rs1 rs2) s rd (signedLow 32 ((s.readX rs1).toInt - (s.readX rs2).toInt)))

/-- R131, R132, R133: the word shifts by an immediate of 0 to 31. Division is floor division. -/
def Obligations.WordShiftsByImmediateComplete : Prop :=
  ∀ (s : State) (rd rs1 : Reg) (shamt : BitVec 5),
    (Encodes (layoutR 0b0000000#7 shamt rs1 0b001#3 rd 0b0011011#7) (.slliw rd rs1 shamt) ∧
      CompletesWith (.slliw rd rs1 shamt) s rd (signedLow 32 ((s.readX rs1).toNat * 2 ^ shamt.toNat))) ∧
    (Encodes (layoutR 0b0000000#7 shamt rs1 0b101#3 rd 0b0011011#7) (.srliw rd rs1 shamt) ∧
      CompletesWith (.srliw rd rs1 shamt) s rd
        (signedLow 32 (((s.readX rs1).toNat % 2 ^ 32 / 2 ^ shamt.toNat : Nat) : Int))) ∧
    (Encodes (layoutR 0b0100000#7 shamt rs1 0b101#3 rd 0b0011011#7) (.sraiw rd rs1 shamt) ∧
      CompletesWith (.sraiw rd rs1 shamt) s rd
        (wrap64 (Int.fdiv (Int.bmod (s.readX rs1).toNat (2 ^ 32)) (2 ^ shamt.toNat))))

/-- R136, R137, R138: the word shifts by a register use its low 5 bits. -/
def Obligations.WordShiftsByRegisterComplete : Prop :=
  ∀ (s : State) (rd rs1 rs2 : Reg),
    (Encodes (layoutR 0b0000000#7 rs2 rs1 0b001#3 rd 0b0111011#7) (.sllw rd rs1 rs2) ∧
      CompletesWith (.sllw rd rs1 rs2) s rd
        (signedLow 32 ((s.readX rs1).toNat * 2 ^ ((s.readX rs2).toNat % 32)))) ∧
    (Encodes (layoutR 0b0000000#7 rs2 rs1 0b101#3 rd 0b0111011#7) (.srlw rd rs1 rs2) ∧
      CompletesWith (.srlw rd rs1 rs2) s rd
        (signedLow 32 (((s.readX rs1).toNat % 2 ^ 32 / 2 ^ ((s.readX rs2).toNat % 32) : Nat) : Int))) ∧
    (Encodes (layoutR 0b0100000#7 rs2 rs1 0b101#3 rd 0b0111011#7) (.sraw rd rs1 rs2) ∧
      CompletesWith (.sraw rd rs1 rs2) s rd
        (wrap64 (Int.fdiv (Int.bmod (s.readX rs1).toNat (2 ^ 32)) (2 ^ ((s.readX rs2).toNat % 32)))))

/-! ## Integer computation -/

/-- R160, R161: LUI and AUIPC. -/
def Obligations.UpperImmediatesComplete : Prop :=
  ∀ (s : State) (rd : Reg) (imm : BitVec 20),
    (Encodes (layoutU imm rd 0b0110111#7) (.lui rd imm) ∧
      CompletesWith (.lui rd imm) s rd (signedLow 32 (imm.toNat * 4096))) ∧
    (Encodes (layoutU imm rd 0b0010111#7) (.auipc rd imm) ∧
      CompletesWith (.auipc rd imm) s rd (wrap64 (s.pc.toNat + Int.bmod (imm.toNat * 4096) (2 ^ 32))))

/-- R162, R180, R181: ADDI, ADD and SUB keep the low 64 bits. -/
def Obligations.SumsComplete : Prop :=
  ∀ (s : State) (rd rs1 rs2 : Reg) (imm : BitVec 12),
    (Encodes (layoutI imm rs1 0b000#3 rd 0b0010011#7) (.addi rd rs1 imm) ∧
      CompletesWith (.addi rd rs1 imm) s rd (wrap64 ((s.readX rs1).toInt + imm.toInt))) ∧
    (Encodes (layoutR 0b0000000#7 rs2 rs1 0b000#3 rd 0b0110011#7) (.add rd rs1 rs2) ∧
      CompletesWith (.add rd rs1 rs2) s rd (wrap64 ((s.readX rs1).toInt + (s.readX rs2).toInt))) ∧
    (Encodes (layoutR 0b0100000#7 rs2 rs1 0b000#3 rd 0b0110011#7) (.sub rd rs1 rs2) ∧
      CompletesWith (.sub rd rs1 rs2) s rd (wrap64 ((s.readX rs1).toInt - (s.readX rs2).toInt)))

/-- R163, R164, R183, R184: the comparisons write 0 or 1; SLTIU extends the sign and then compares unsigned. -/
def Obligations.ComparisonsComplete : Prop :=
  ∀ (s : State) (rd rs1 rs2 : Reg) (imm : BitVec 12),
    (Encodes (layoutI imm rs1 0b010#3 rd 0b0010011#7) (.slti rd rs1 imm) ∧
      CompletesWith (.slti rd rs1 imm) s rd (if (s.readX rs1).toInt < imm.toInt then 1 else 0)) ∧
    (Encodes (layoutI imm rs1 0b011#3 rd 0b0010011#7) (.sltiu rd rs1 imm) ∧
      CompletesWith (.sltiu rd rs1 imm) s rd (if ((s.readX rs1).toNat : Int) < imm.toInt % 2 ^ 64 then 1 else 0)) ∧
    (Encodes (layoutR 0b0000000#7 rs2 rs1 0b010#3 rd 0b0110011#7) (.slt rd rs1 rs2) ∧
      CompletesWith (.slt rd rs1 rs2) s rd (if (s.readX rs1).toInt < (s.readX rs2).toInt then 1 else 0)) ∧
    (Encodes (layoutR 0b0000000#7 rs2 rs1 0b011#3 rd 0b0110011#7) (.sltu rd rs1 rs2) ∧
      CompletesWith (.sltu rd rs1 rs2) s rd (if (s.readX rs1).toNat < (s.readX rs2).toNat then 1 else 0))

/-- R165, R166, R167, R185, R188, R189: the bitwise operations, bit by bit; bit 11 of an immediate stands for all above
it. -/
def Obligations.BitwiseOperationsComplete : Prop :=
  ∀ (s : State) (rd rs1 rs2 : Reg) (imm : BitVec 12),
    (Encodes (layoutI imm rs1 0b100#3 rd 0b0010011#7) (.xori rd rs1 imm) ∧
      CompletesBitwise (.xori rd rs1 imm) s rd (fun k => (s.readX rs1).getLsbD k != imm.getLsbD (min k 11))) ∧
    (Encodes (layoutI imm rs1 0b110#3 rd 0b0010011#7) (.ori rd rs1 imm) ∧
      CompletesBitwise (.ori rd rs1 imm) s rd (fun k => (s.readX rs1).getLsbD k || imm.getLsbD (min k 11))) ∧
    (Encodes (layoutI imm rs1 0b111#3 rd 0b0010011#7) (.andi rd rs1 imm) ∧
      CompletesBitwise (.andi rd rs1 imm) s rd (fun k => (s.readX rs1).getLsbD k && imm.getLsbD (min k 11))) ∧
    (Encodes (layoutR 0b0000000#7 rs2 rs1 0b100#3 rd 0b0110011#7) (.xor rd rs1 rs2) ∧
      CompletesBitwise (.xor rd rs1 rs2) s rd (fun k => (s.readX rs1).getLsbD k != (s.readX rs2).getLsbD k)) ∧
    (Encodes (layoutR 0b0000000#7 rs2 rs1 0b110#3 rd 0b0110011#7) (.or rd rs1 rs2) ∧
      CompletesBitwise (.or rd rs1 rs2) s rd (fun k => (s.readX rs1).getLsbD k || (s.readX rs2).getLsbD k)) ∧
    (Encodes (layoutR 0b0000000#7 rs2 rs1 0b111#3 rd 0b0110011#7) (.and rd rs1 rs2) ∧
      CompletesBitwise (.and rd rs1 rs2) s rd (fun k => (s.readX rs1).getLsbD k && (s.readX rs2).getLsbD k))

/-- R168, R169, R170: the 64-bit shifts by an immediate of 0 to 63. Division is floor division. -/
def Obligations.ShiftsByImmediateComplete : Prop :=
  ∀ (s : State) (rd rs1 : Reg) (shamt : BitVec 6),
    (Encodes (layoutShift64 0b000000#6 shamt rs1 0b001#3 rd 0b0010011#7) (.slli rd rs1 shamt) ∧
      CompletesWith (.slli rd rs1 shamt) s rd (wrap64 ((s.readX rs1).toNat * 2 ^ shamt.toNat))) ∧
    (Encodes (layoutShift64 0b000000#6 shamt rs1 0b101#3 rd 0b0010011#7) (.srli rd rs1 shamt) ∧
      CompletesWith (.srli rd rs1 shamt) s rd (wrap64 (((s.readX rs1).toNat / 2 ^ shamt.toNat : Nat) : Int))) ∧
    (Encodes (layoutShift64 0b010000#6 shamt rs1 0b101#3 rd 0b0010011#7) (.srai rd rs1 shamt) ∧
      CompletesWith (.srai rd rs1 shamt) s rd (wrap64 (Int.fdiv (s.readX rs1).toInt (2 ^ shamt.toNat))))

/-- R182, R186, R187: the 64-bit shifts by a register use its low 6 bits. -/
def Obligations.ShiftsByRegisterComplete : Prop :=
  ∀ (s : State) (rd rs1 rs2 : Reg),
    (Encodes (layoutR 0b0000000#7 rs2 rs1 0b001#3 rd 0b0110011#7) (.sll rd rs1 rs2) ∧
      CompletesWith (.sll rd rs1 rs2) s rd (wrap64 ((s.readX rs1).toNat * 2 ^ ((s.readX rs2).toNat % 64)))) ∧
    (Encodes (layoutR 0b0000000#7 rs2 rs1 0b101#3 rd 0b0110011#7) (.srl rd rs1 rs2) ∧
      CompletesWith (.srl rd rs1 rs2) s rd
        (wrap64 (((s.readX rs1).toNat / 2 ^ ((s.readX rs2).toNat % 64) : Nat) : Int))) ∧
    (Encodes (layoutR 0b0100000#7 rs2 rs1 0b101#3 rd 0b0110011#7) (.sra rd rs1 rs2) ∧
      CompletesWith (.sra rd rs1 rs2) s rd (wrap64 (Int.fdiv (s.readX rs1).toInt (2 ^ ((s.readX rs2).toNat % 64)))))

/-! ## Fences -/

/-- R72, R105: with one hart FENCE, whatever its sets, only moves on to the next instruction. Log 24. -/
def Obligations.FenceOnlyAdvances : Prop :=
  ∀ (s : State) (pred succ : BitVec 4),
    Encodes (layoutFence pred succ) (.fence pred succ) ∧ CompletesAt (.fence pred succ) s (s.pc + 4)

/-- R201: FENCE.I empties the set S; from then on each byte is fetched with its current content. -/
def Obligations.FenceIEmptiesTheStoredSet : Prop :=
  ∀ s : State,
    Encodes 0x0000100F#32 .fenceI ∧
    ∃ t, exec .fenceI s = .next t ∧ t.stored = [] ∧ (∀ a : Word, t.fetchByte a = t.readByte a) ∧
      (∀ a : Word, t.readByte a = s.readByte a) ∧ t.pc = s.pc + 4 ∧ SameRegisters s t ∧ SameControl s t

/-- R236: SFENCE.VMA completes in M-mode and in S-mode with TVM = 0, and is illegal in U-mode, in S-mode with TVM = 1,
and where S-mode does not exist (R323). -/
def Obligations.SfenceVmaChecksPrivilege : Prop :=
  ∀ (s : State) (rs1 rs2 : Reg),
    Encodes (layoutR 0b0001001#7 rs2 rs1 0b000#3 0#5 0b1110011#7) (.sfenceVma rs1 rs2) ∧
    (s.cfg.hasS = true → s.priv ≠ .u →
      ¬ (s.cfg.trapModel = .privileged ∧ s.priv = .s ∧ s.csr.mstatus.tvm = true) →
      CompletesAt (.sfenceVma rs1 rs2) s (s.pc + 4)) ∧
    (s.cfg.hasS = false ∨ s.priv = .u ∨
      (s.cfg.trapModel = .privileged ∧ s.priv = .s ∧ s.csr.mstatus.tvm = true) →
      RaisesIllegal (.sfenceVma rs1 rs2) s)

/-! ## Loads and stores -/

/-- R54 and the seven loads: results, alignment, access faults. -/
def Obligations.LoadsFollowTheirRules : Prop :=
  ∀ (rd rs1 : Reg) (offset : BitVec 12),
    (Encodes (layoutI offset rs1 0b000#3 rd 0b0000011#7) (.lb rd rs1 offset) ∧
      LoadRule (.lb rd rs1 offset) 1 true rd rs1 offset) ∧
    (Encodes (layoutI offset rs1 0b001#3 rd 0b0000011#7) (.lh rd rs1 offset) ∧
      LoadRule (.lh rd rs1 offset) 2 true rd rs1 offset) ∧
    (Encodes (layoutI offset rs1 0b010#3 rd 0b0000011#7) (.lw rd rs1 offset) ∧
      LoadRule (.lw rd rs1 offset) 4 true rd rs1 offset) ∧
    (Encodes (layoutI offset rs1 0b011#3 rd 0b0000011#7) (.ld rd rs1 offset) ∧
      LoadRule (.ld rd rs1 offset) 8 false rd rs1 offset) ∧
    (Encodes (layoutI offset rs1 0b100#3 rd 0b0000011#7) (.lbu rd rs1 offset) ∧
      LoadRule (.lbu rd rs1 offset) 1 false rd rs1 offset) ∧
    (Encodes (layoutI offset rs1 0b101#3 rd 0b0000011#7) (.lhu rd rs1 offset) ∧
      LoadRule (.lhu rd rs1 offset) 2 false rd rs1 offset) ∧
    (Encodes (layoutI offset rs1 0b110#3 rd 0b0000011#7) (.lwu rd rs1 offset) ∧
      LoadRule (.lwu rd rs1 offset) 4 false rd rs1 offset)

/-- R55 and the four stores: the bytes stored, the frame, alignment, access faults. -/
def Obligations.StoresFollowTheirRules : Prop :=
  ∀ (rs2 rs1 : Reg) (offset : BitVec 12),
    (Encodes (layoutS offset rs2 rs1 0b000#3 0b0100011#7) (.sb rs2 rs1 offset) ∧
      StoreRule (.sb rs2 rs1 offset) 1 rs2 rs1 offset) ∧
    (Encodes (layoutS offset rs2 rs1 0b001#3 0b0100011#7) (.sh rs2 rs1 offset) ∧
      StoreRule (.sh rs2 rs1 offset) 2 rs2 rs1 offset) ∧
    (Encodes (layoutS offset rs2 rs1 0b010#3 0b0100011#7) (.sw rs2 rs1 offset) ∧
      StoreRule (.sw rs2 rs1 offset) 4 rs2 rs1 offset) ∧
    (Encodes (layoutS offset rs2 rs1 0b011#3 0b0100011#7) (.sd rs2 rs1 offset) ∧
      StoreRule (.sd rs2 rs1 offset) 8 rs2 rs1 offset)

/-- R51: the effective address is the base plus the signed 12-bit offset, modulo 2^64. -/
def Obligations.EffectiveAddressWraps : Prop :=
  ∀ (base : Word) (offset : BitVec 12), effectiveAddress base offset = wrap64 (base.toNat + offset.toInt)

/-- R57: after an SD at an address, the narrower loads at the addresses inside it see its bytes. -/
def Obligations.NarrowLoadsSeeAWideStore : Prop :=
  ∀ (s t : State) (rs2 rs1 : Reg) (offset : BitVec 12),
    AccessGranted s .write (effectiveAddress (s.readX rs1) offset) 8 → exec (.sd rs2 rs1 offset) s = .next t →
    ∀ (rd rb : Reg) (o : BitVec 12),
      (∀ i, i < 8 → effectiveAddress (t.readX rb) o = byteAddr (effectiveAddress (s.readX rs1) offset) i →
        AccessGranted t .read (effectiveAddress (t.readX rb) o) 1 →
        CompletesWith (.lbu rd rb o) t rd (wrap64 (((s.readX rs2).toNat / 2 ^ (8 * i) % 2 ^ 8 : Nat) : Int))) ∧
      (∀ j, j < 4 → effectiveAddress (t.readX rb) o = byteAddr (effectiveAddress (s.readX rs1) offset) (2 * j) →
        AccessGranted t .read (effectiveAddress (t.readX rb) o) 2 →
        CompletesWith (.lhu rd rb o) t rd (wrap64 (((s.readX rs2).toNat / 2 ^ (16 * j) % 2 ^ 16 : Nat) : Int))) ∧
      (∀ k, k < 2 → effectiveAddress (t.readX rb) o = byteAddr (effectiveAddress (s.readX rs1) offset) (4 * k) →
        AccessGranted t .read (effectiveAddress (t.readX rb) o) 4 →
        CompletesWith (.lwu rd rb o) t rd (wrap64 (((s.readX rs2).toNat / 2 ^ (32 * k) % 2 ^ 32 : Nat) : Int)))

/-! ## Control transfer -/

/-- R270, R271: JAL and JALR jump and link, and raise at a misaligned target with nothing written; JALR's opcode with
another `funct3` is no instruction. -/
def Obligations.JumpsFollowTheirRules : Prop :=
  ∀ (rd rs1 : Reg) (offset : BitVec 21) (displacement : BitVec 12),
    (offset.getLsbD 0 = false → Encodes (layoutJ offset rd 0b1101111#7) (.jal rd offset)) ∧
    JumpRule (.jal rd offset) rd (fun s => relativeTarget s offset) ∧
    Encodes (layoutI displacement rs1 0b000#3 rd 0b1100111#7) (.jalr rd rs1 displacement) ∧
    JumpRule (.jalr rd rs1 displacement) rd
      (fun s => BitVec.ofNat 64 ((wrap64 ((s.readX rs1).toNat + displacement.toInt)).toNat / 2 * 2)) ∧
    ∀ w : InstWord, w.extractLsb' 0 7 = 0b1100111#7 → w.extractLsb' 12 3 ≠ 0b000#3 → ∃ e, decodeWord w = .error e

/-- R272 to R278: the six branches; `funct3` values 010 and 011 with their opcode are no instruction. -/
def Obligations.BranchesFollowTheirRules : Prop :=
  ∀ (rs1 rs2 : Reg) (offset : BitVec 13),
    (offset.getLsbD 0 = false →
      Encodes (layoutB offset rs2 rs1 0b000#3 0b1100011#7) (.beq rs1 rs2 offset) ∧
      Encodes (layoutB offset rs2 rs1 0b001#3 0b1100011#7) (.bne rs1 rs2 offset) ∧
      Encodes (layoutB offset rs2 rs1 0b100#3 0b1100011#7) (.blt rs1 rs2 offset) ∧
      Encodes (layoutB offset rs2 rs1 0b101#3 0b1100011#7) (.bge rs1 rs2 offset) ∧
      Encodes (layoutB offset rs2 rs1 0b110#3 0b1100011#7) (.bltu rs1 rs2 offset) ∧
      Encodes (layoutB offset rs2 rs1 0b111#3 0b1100011#7) (.bgeu rs1 rs2 offset)) ∧
    BranchRule (.beq rs1 rs2 offset) (fun s => s.readX rs1 = s.readX rs2) offset ∧
    BranchRule (.bne rs1 rs2 offset) (fun s => s.readX rs1 ≠ s.readX rs2) offset ∧
    BranchRule (.blt rs1 rs2 offset) (fun s => (s.readX rs1).toInt < (s.readX rs2).toInt) offset ∧
    BranchRule (.bge rs1 rs2 offset) (fun s => (s.readX rs2).toInt ≤ (s.readX rs1).toInt) offset ∧
    BranchRule (.bltu rs1 rs2 offset) (fun s => (s.readX rs1).toNat < (s.readX rs2).toNat) offset ∧
    BranchRule (.bgeu rs1 rs2 offset) (fun s => (s.readX rs2).toNat ≤ (s.readX rs1).toNat) offset ∧
    ∀ w : InstWord, w.extractLsb' 0 7 = 0b1100011#7 → w.extractLsb' 12 3 = 0b010#3 ∨ w.extractLsb' 12 3 = 0b011#3 →
      ∃ e, decodeWord w = .error e

/-! ## Control and status registers -/

/-- R213 to R218, R220, R221: the six CSR instructions, when `CSRCheck` passes and when it fails. Under the terminal trap
model no CSR exists and each is illegal. -/
def Obligations.CsrInstructionsFollowTheirRules : Prop :=
  ∀ (s : State) (rd rs1 : Reg) (n : CsrNumber) (uimm : BitVec 5),
    (Encodes (layoutI n rs1 0b001#3 rd 0b1110011#7) (.csrrw rd n rs1) ∧
      CsrRule (.csrrw rd n rs1) s n rd true (fun _ => s.readX rs1)) ∧
    (Encodes (layoutI n rs1 0b010#3 rd 0b1110011#7) (.csrrs rd n rs1) ∧
      CsrRule (.csrrs rd n rs1) s n rd (decide (rs1 ≠ 0#5)) (fun old => old ||| s.readX rs1)) ∧
    (Encodes (layoutI n rs1 0b011#3 rd 0b1110011#7) (.csrrc rd n rs1) ∧
      CsrRule (.csrrc rd n rs1) s n rd (decide (rs1 ≠ 0#5)) (fun old => old &&& ~~~(s.readX rs1))) ∧
    (Encodes (layoutI n uimm 0b101#3 rd 0b1110011#7) (.csrrwi rd n uimm) ∧
      CsrRule (.csrrwi rd n uimm) s n rd true (fun _ => wrap64 uimm.toNat)) ∧
    (Encodes (layoutI n uimm 0b110#3 rd 0b1110011#7) (.csrrsi rd n uimm) ∧
      CsrRule (.csrrsi rd n uimm) s n rd (decide (uimm ≠ 0#5)) (fun old => old ||| wrap64 uimm.toNat)) ∧
    (Encodes (layoutI n uimm 0b111#3 rd 0b1110011#7) (.csrrci rd n uimm) ∧
      CsrRule (.csrrci rd n uimm) s n rd (decide (uimm ≠ 0#5)) (fun old => old &&& ~~~(wrap64 uimm.toNat)))

/-- R212 with the masks of part C: a write gives a writable bit the written value and leaves every other bit, the
legalised fields apart. Which CSR is read back is the one written; the bits of a view outside its mask are as R332 and
R338 show them (log 25). TW of `mstatus` is writable with U-mode only: in {M, S} that is R323's sentence, followed over the
column of table R331 (log 18). -/
def Obligations.CsrWriteChangesWritableBitsOnly : Prop :=
  ∀ (s : State) (c : Csr) (v : Word) (k : Nat), c.present s.cfg = true → k < 64 → ¬ legalisedField c k →
    (writableBits s c k → ((s.csrWrite c v).csrRead c).getLsbD k = v.getLsbD k) ∧
    (¬ writableBits s c k → ((s.csrWrite c v).csrRead c).getLsbD k = (s.csrRead c).getLsbD k)

/-- R331, R333 (D31): MPP takes a written code of a mode that exists and MODE a written 0 or 1; any other written value
leaves the field as it was (log 17). Without U-mode MPP is M whatever is written (R323; log 18). -/
def Obligations.LegalisedFieldsKeepLegalValues : Prop :=
  (∀ (s : State) (v : Word),
    (s.cfg.hasU = true →
      (∀ y : Mode, (v.extractLsb' 11 2).toNat = y.code → y.present s.cfg = true →
        (s.csrWrite .mstatus v).csr.mstatus.mpp = y) ∧
      ((∀ y : Mode, (v.extractLsb' 11 2).toNat = y.code → y.present s.cfg = false) →
        (s.csrWrite .mstatus v).csr.mstatus.mpp = s.csr.mstatus.mpp)) ∧
    (s.cfg.hasU = false → (s.csrWrite .mstatus v).csr.mstatus.mpp = .m)) ∧
  (∀ (s : State) (v : Word) (c : Csr), c = .mtvec ∨ c = .stvec ∨ c = .utvec →
    (v.toNat % 4 < 2 → (s.csrWrite c v).csrRead c = v) ∧
    (2 ≤ v.toNat % 4 → ∀ k, k < 2 → ((s.csrWrite c v).csrRead c).getLsbD k = (s.csrRead c).getLsbD k))

/-- A CSR write changes what a read of another CSR answers only where the two show the same storage (R332, R337, R338),
and changes nothing but CSRs. -/
def Obligations.CsrWriteTouchesOneStorage : Prop :=
  ∀ (s : State) (c d : Csr) (v : Word),
    (showsWriteOf c d = false → (s.csrWrite c v).csrRead d = s.csrRead d) ∧
    SameRegisters s (s.csrWrite c v) ∧ SameMemory s (s.csrWrite c v) ∧ (s.csrWrite c v).pc = s.pc ∧
    (s.csrWrite c v).priv = s.priv

/-- R331: every bit of `mstatus` as it reads, the hardwired ones at their fixed values (R323; log 18). -/
def Obligations.MstatusReadsItsFields : Prop :=
  ∀ (s : State) (k : Nat), k < 64 →
    (s.csrRead .mstatus).getLsbD k =
      if k = 0 then s.cfg.hasN && s.cfg.hasU && s.csr.mstatus.uie
      else if k = 1 then s.cfg.hasS && s.csr.mstatus.sie
      else if k = 3 then s.csr.mstatus.mie
      else if k = 4 then s.cfg.hasN && s.cfg.hasU && s.csr.mstatus.upie
      else if k = 5 then s.cfg.hasS && s.csr.mstatus.spie
      else if k = 7 then s.csr.mstatus.mpie
      else if k = 8 then s.cfg.hasS && s.csr.mstatus.spp
      else if k = 11 then !s.cfg.hasU || decide (s.csr.mstatus.mpp ≠ .u)
      else if k = 12 then !s.cfg.hasU || decide (s.csr.mstatus.mpp = .m)
      else if k = 17 then s.cfg.hasU && s.csr.mstatus.mprv
      else if k = 18 then s.cfg.hasS && s.csr.mstatus.sum
      else if k = 19 then s.cfg.hasS && s.csr.mstatus.mxr
      else if k = 20 then s.cfg.hasS && s.csr.mstatus.tvm
      else if k = 21 then s.cfg.hasU && s.csr.mstatus.tw
      else if k = 22 then s.cfg.hasS && s.csr.mstatus.tsr
      else if k = 33 then s.cfg.hasU
      else if k = 35 then s.cfg.hasS
      else false

/-- R332: `sstatus` and `ustatus` show and write the bits of `mstatus` that R332 names and no other. -/
def Obligations.StatusViewsShowMstatus : Prop :=
  ∀ (s : State) (v : Word) (k : Nat), k < 64 →
    ((s.csrRead .sstatus).getLsbD k =
      (decide (k ∈ [0, 1, 4, 5, 8, 13, 14, 15, 16, 18, 19, 32, 33, 63]) && (s.csrRead .mstatus).getLsbD k)) ∧
    ((s.csrRead .ustatus).getLsbD k = (decide (k ∈ [0, 4]) && (s.csrRead .mstatus).getLsbD k)) ∧
    (k ∈ [0, 1, 4, 5, 8, 18, 19] ∧ writableBits s .mstatus k →
      ((s.csrWrite .sstatus v).csrRead .mstatus).getLsbD k = v.getLsbD k) ∧
    (¬ (k ∈ [0, 1, 4, 5, 8, 18, 19] ∧ writableBits s .mstatus k) →
      ((s.csrWrite .sstatus v).csrRead .mstatus).getLsbD k = (s.csrRead .mstatus).getLsbD k) ∧
    (k ∈ [0, 4] ∧ writableBits s .mstatus k →
      ((s.csrWrite .ustatus v).csrRead .mstatus).getLsbD k = v.getLsbD k) ∧
    (¬ (k ∈ [0, 4] ∧ writableBits s .mstatus k) →
      ((s.csrWrite .ustatus v).csrRead .mstatus).getLsbD k = (s.csrRead .mstatus).getLsbD k)

/-- R338: the views `sie`, `sip`, `uie`, `uip` show the bits their delegation registers give them, and 0 elsewhere; a write
through one changes exactly the bits of `mie` or `mip` that it shows and that are writable through it, and no other bit of
either (R212; log 25). That a delegation register that does not exist counts as 0 in the views too is the model's reading of
R340, log 19. -/
def Obligations.InterruptViewsShowDelegatedBits : Prop :=
  ∀ (s : State) (v : Word) (k : Nat), k < 64 →
    ((s.csrRead .sie).getLsbD k = true ↔
      k ∈ [0, 1, 4, 5, 8, 9] ∧ InMideleg s k ∧ (s.csrRead .mie).getLsbD k = true) ∧
    ((s.csrRead .sip).getLsbD k = true ↔
      k ∈ [0, 1, 4, 5, 8, 9] ∧ InMideleg s k ∧ (s.csrRead .mip).getLsbD k = true) ∧
    ((s.csrRead .uie).getLsbD k = true ↔
      k ∈ [0, 4, 8] ∧ InMideleg s k ∧ InSideleg s k ∧ (s.csrRead .mie).getLsbD k = true) ∧
    ((s.csrRead .uip).getLsbD k = true ↔
      k ∈ [0, 4, 8] ∧ InMideleg s k ∧ InSideleg s k ∧ (s.csrRead .mip).getLsbD k = true) ∧
    WritesThroughView s (s.csrWrite .sie v) .mie .mip v k (k ∈ [0, 1, 4, 5, 8, 9] ∧ InMideleg s k) ∧
    WritesThroughView s (s.csrWrite .sip v) .mip .mie v k (k ∈ [0, 1, 8] ∧ InMideleg s k) ∧
    WritesThroughView s (s.csrWrite .uie v) .mie .mip v k (k ∈ [0, 4, 8] ∧ InMideleg s k ∧ InSideleg s k) ∧
    WritesThroughView s (s.csrWrite .uip v) .mip .mie v k (k = 0 ∧ InMideleg s k ∧ InSideleg s k)

/-- R339: the scratch registers hold what is written; `misa`, `satp`, `mhartid` and the identification registers read
their fixed values and have no bit a write changes, the last four by their numbers read-only; `satp` is illegal in S-mode
with TVM = 1. Every other CSR with storage of its own reads as the field that trap entry, trap return and the interrupts use
(R333 to R338). -/
def Obligations.RemainingCsrsReadAsGiven : Prop :=
  ∀ (s : State) (v : Word),
    (s.csrWrite .mscratch v).csrRead .mscratch = v ∧ (s.csrWrite .sscratch v).csrRead .sscratch = v ∧
    (s.csrWrite .uscratch v).csrRead .uscratch = v ∧
    (∀ k, k < 64 → (s.csrRead .misa).getLsbD k =
      (decide (k = 63 ∨ k = 8) || (decide (k = 18) && s.cfg.hasS) || (decide (k = 20) && s.cfg.hasU) ||
        (decide (k = 13) && s.cfg.hasN && s.cfg.hasU))) ∧
    s.csrRead .mvendorid = s.cfg.vendorId ∧ s.csrRead .marchid = s.cfg.archId ∧ s.csrRead .mimpid = s.cfg.impId ∧
    s.csrRead .mhartid = 0 ∧ s.csrRead .satp = 0 ∧
    (s.csrWrite .misa v).csr = s.csr ∧ (s.csrWrite .satp v).csr = s.csr ∧
    (s.csrRead .mtvec = s.csr.mtvec ∧ s.csrRead .stvec = s.csr.stvec ∧ s.csrRead .utvec = s.csr.utvec) ∧
    (s.csrRead .mepc = s.csr.mepc ∧ s.csrRead .sepc = s.csr.sepc ∧ s.csrRead .uepc = s.csr.uepc) ∧
    (s.csrRead .mcause = s.csr.mcause ∧ s.csrRead .scause = s.csr.scause ∧ s.csrRead .ucause = s.csr.ucause) ∧
    (s.csrRead .mtval = s.csr.mtval ∧ s.csrRead .stval = s.csr.stval ∧ s.csrRead .utval = s.csr.utval) ∧
    (s.csrRead .medeleg = s.csr.medeleg ∧ s.csrRead .mideleg = s.csr.mideleg ∧ s.csrRead .sedeleg = s.csr.sedeleg ∧
      s.csrRead .sideleg = s.csr.sideleg) ∧
    (s.csrRead .mie = s.csr.mie ∧ s.csrRead .mip = s.csr.mip) ∧
    (∀ c ∈ [Csr.mvendorid, .marchid, .mimpid, .mhartid],
      (s.csrWrite c v).csr = s.csr ∧ c.number.extractLsb' 10 2 = 3#2) ∧
    ∀ (i : Instr) (rd rs1 : Reg), s.priv = .s → s.csr.mstatus.tvm = true →
      i = .csrrw rd 0x180#12 rs1 ∨ i = .csrrs rd 0x180#12 rs1 ∨ i = .csrrc rd 0x180#12 rs1 ∨
        i = .csrrwi rd 0x180#12 rs1 ∨ i = .csrrsi rd 0x180#12 rs1 ∨ i = .csrrci rd 0x180#12 rs1 → RaisesIllegal i s

/-! ## Environment and trap returns -/

/-- R230: ECALL raises the environment call of the current mode, recorded value 0; under `privileged` it takes that trap. -/
def Obligations.EcallCallsTheEnvironment : Prop :=
  Encodes 0x00000073#32 .ecall ∧
  Exc.environmentCallFromUMode.code = 8 ∧ Exc.environmentCallFromSMode.code = 9 ∧
  Exc.environmentCallFromMMode.code = 11 ∧
  ∀ s : State,
    (s.priv = .u → Raises (exec .ecall s) s .environmentCallFromUMode 0) ∧
    (s.priv = .s → Raises (exec .ecall s) s .environmentCallFromSMode 0) ∧
    (s.priv = .m → Raises (exec .ecall s) s .environmentCallFromMMode 0) ∧
    (s.cfg.trapModel = .privileged → ∃ t, exec .ecall s = .next t)

/-- R231: EBREAK raises `Breakpoint` with its own address; under `privileged` it takes that trap. -/
def Obligations.EbreakRaisesBreakpoint : Prop :=
  Encodes 0x00100073#32 .ebreak ∧ Exc.breakpoint.code = 3 ∧
  ∀ s : State,
    Raises (exec .ebreak s) s .breakpoint s.pc ∧ (s.cfg.trapModel = .privileged → ∃ t, exec .ebreak s = .next t)

/-- R232: URET, in any mode where user-level trap handling exists (R323). -/
def Obligations.UretReturnsToUserMode : Prop :=
  Encodes 0x00200073#32 .uret ∧
  ∀ s : State,
    (s.cfg.trapModel = .privileged → s.cfg.hasN = true → s.cfg.hasU = true →
      ∃ t, exec .uret s = .next t ∧
        ReturnsTo s t .u s.csr.uepc { s.csr.mstatus with uie := s.csr.mstatus.upie, upie := true }) ∧
    (s.cfg.trapModel = .terminal ∨ s.cfg.hasN = false ∨ s.cfg.hasU = false → RaisesIllegal .uret s)

/-- R233: SRET. In {M, S}, where R342 would put the least privileged mode S in SPP, SPP becomes 0 and an SPP of 0 leads to U
as R233's pseudocode writes (log 18). -/
def Obligations.SretReturnsFromSupervisorTrap : Prop :=
  Encodes 0x10200073#32 .sret ∧
  ∀ s : State,
    (s.cfg.trapModel = .privileged → s.cfg.hasS = true → s.priv = .m ∨ (s.priv = .s ∧ s.csr.mstatus.tsr = false) →
      ∃ t, exec .sret s = .next t ∧
        ReturnsTo s t (if s.csr.mstatus.spp = true then .s else .u) s.csr.sepc
          { s.csr.mstatus with sie := s.csr.mstatus.spie, spie := true, spp := false }) ∧
    (s.cfg.trapModel = .terminal ∨ s.cfg.hasS = false ∨ s.priv = .u ∨ (s.priv = .s ∧ s.csr.mstatus.tsr = true) →
      RaisesIllegal .sret s)

/-- R234: MRET. Without U-mode MPP is hardwired to M and MRET returns there (R323; log 18). -/
def Obligations.MretReturnsFromMachineTrap : Prop :=
  Encodes 0x30200073#32 .mret ∧
  ∀ s : State,
    (s.cfg.trapModel = .privileged → s.priv = .m →
      ∃ t, exec .mret s = .next t ∧
        ReturnsTo s t (if s.cfg.hasU = true then s.csr.mstatus.mpp else .m) s.csr.mepc
          { s.csr.mstatus with
            mie := s.csr.mstatus.mpie, mpie := true, mpp := if s.cfg.hasU = true then .u else .m }) ∧
    (s.cfg.trapModel = .terminal ∨ s.priv ≠ .m → RaisesIllegal .mret s)

/-- R235: WFI is illegal in U-mode unless `WFI_IN_U`; below M-mode with TW = 1 it raises or goes on, which of the two is
free (log 12); otherwise the hart stays at it or completes it, and completes it when an enabled interrupt is pending
(log 11). -/
def Obligations.WfiWaitsOrCompletes : Prop :=
  Encodes 0x10500073#32 .wfi ∧
  ∀ s : State,
    (s.priv = .u → s.cfg.wfiInU = false → RaisesIllegal .wfi s) ∧
    (s.priv ≠ .u ∨ s.cfg.wfiInU = true →
      (s.cfg.trapModel = .privileged → s.priv ≠ .m → s.csr.mstatus.tw = false) →
      ∃ t, exec .wfi s = .next t ∧ WfiKeeps s t ∧
        ((t.pc = s.pc + 4 ∧ t.stalled = false) ∨ (t.pc = s.pc ∧ t.stalled = true)) ∧
        ((s.cfg.trapModel = .privileged ∧ ∃ c, PendingEnabled s c) → t.pc = s.pc + 4 ∧ t.stalled = false)) ∧
    (s.priv = .s ∨ (s.priv = .u ∧ s.cfg.wfiInU = true) → s.cfg.trapModel = .privileged → s.csr.mstatus.tw = true →
      ∃ t, exec .wfi s = .next t ∧
        ((WfiKeeps s t ∧
          ((t.pc = s.pc + 4 ∧ t.stalled = false) ∨ (t.pc = s.pc ∧ t.stalled = true ∧ ¬ ∃ c, PendingEnabled s c))) ∨
        ∃ y, HandlesException s 2 y ∧ t.priv = y ∧ t.stalled = false ∧
          TrapRegisters s t false 2 ((encode .wfi).setWidth 64) s.pc y ∧ SameRegisters s t ∧ SameMemory s t ∧
          t.cfg = s.cfg))

/-! ## Exceptions and interrupts -/

/-- R310, R311, R313: raising ends the run with the trap record under `terminal` and enters the trap under
`privileged`. -/
def Obligations.RaiseDeliversTheException : Prop :=
  ∀ (s : State) (e : Exc) (info : Word), Raises (s.raise e info) s e info

/-- R340: the mode that handles an exception, never less privileged than the current one, and the one that handles an
interrupt. -/
def Obligations.HandlerModeIsDelegated : Prop :=
  ∀ (s : State) (c : Nat) (q : Irq),
    HandlesException s c (s.exceptionHandler c) ∧ s.priv.code ≤ (s.exceptionHandler c).code ∧
    HandlesInterrupt s q (s.irqHandler q)

/-- R341: taking a trap, exception or interrupt, into a mode. Without U-mode MPP is hardwired to M (R323; log 18). -/
def Obligations.TrapEntrySavesAndRedirects : Prop :=
  ∀ (s : State) (interrupt : Bool) (c : Nat) (tval epc : Word) (y : Mode), c < 2 ^ 63 →
    EntersTrap s (s.takeTrap interrupt c tval epc y) interrupt c tval epc y

/-- R343: at a step boundary the takeable interrupt of highest priority is taken, by handler mode and then in the fixed
order, with value 0 and the current `pc`; with none takeable the hart fetches. Taking it at the first boundary is the
choice R343 allows a model, log 14. -/
def Obligations.HighestPriorityInterruptIsTaken : Prop :=
  ∀ s : State, s.samplePlatform.stalled = false →
    ((∃ c y, Takeable s.samplePlatform c y) →
      ∃ c y t, Takeable s.samplePlatform c y ∧
        (∀ c' y', Takeable s.samplePlatform c' y' → y'.code < y.code ∨ (y' = y ∧ irqRank c ≤ irqRank c')) ∧
        step s = .next t ∧ EntersTrap s.samplePlatform t true c.code 0 s.pc y) ∧
    (NoneTakeable s.samplePlatform → step s = s.samplePlatform.fetchAndRun)

/-! ## The whole machine -/

/-- R22: `x0` reads 0 whatever is written to it, and a write to it changes nothing; a write to another register is what a
read of it then gives. -/
def Obligations.RegisterZeroIsHardwired : Prop :=
  ∀ (s : State) (v : Word) (r : Reg),
    s.readX 0#5 = 0 ∧ s.writeX 0#5 v = s ∧ WritesRegister r v s (s.writeX r v)

/-- R23: an instruction writes no integer register but the one its `rd` field names; a trap or an interrupt writes none, so
a step writes none or that of the instruction it ran, decoded from the word it fetched (with one more free value drawn when
a byte of the word is in the set S, log 21). -/
def Obligations.OnlyTheDestinationIsWritten : Prop :=
  (∀ (i : Instr) (s t : State) (r : Reg), exec i s = .next t → destination i ≠ some r → t.readX r = s.readX r) ∧
  (∀ (s t : State) (e : Exc) (info : Word), s.raise e info = .next t → SameRegisters s t) ∧
  (∀ s t : State, s.samplePlatform.stalled = true ∨ (∃ c y, Takeable s.samplePlatform c y) → step s = .next t →
    SameRegisters s t) ∧
  (∀ s t : State, step s = .next t →
    SameRegisters s t ∨
      ∃ (i : Instr) (v : State) (rd : Reg) (value : Word),
        decodeWord (fetchedWord s.samplePlatform) = .ok i ∧
        (v = s.samplePlatform ∨ v = { s.samplePlatform with draws := s.samplePlatform.draws + 1 }) ∧
        exec i v = .next t ∧ destination i = some rd ∧ WritesRegister rd value s t)

/-- R33: the stores are the only instructions that change memory, and only FENCE.I beside them changes the set S. -/
def Obligations.OnlyStoresChangeMemory : Prop :=
  ∀ (i : Instr) (s t : State), exec i s = .next t → isStore i = false →
    (∀ a : Word, t.readByte a = s.readByte a) ∧ (i ≠ .fenceI → t.stored = s.stored)

/-- R20: the parameters are the same in every state of a run. -/
def Obligations.ParametersNeverChange : Prop :=
  ∀ s t : State, step s = .next t → t.cfg = s.cfg

/-- R25: every step keeps `pc` a multiple of 4. -/
def Obligations.PcStaysAligned : Prop :=
  ∀ s t : State, s.pcAligned → step s = .next t → t.pcAligned

/-- Every step keeps the canonical form of memory, and so does loading a word. The form is the model's. -/
def Obligations.MemoryStaysCanonical : Prop :=
  (∀ s t : State, s.memoryCanonical → step s = .next t → t.memoryCanonical) ∧
  (∀ (s : State) (nbits w : Nat), s.memoryCanonical → (s.withFetchWord nbits w).memoryCanonical)

/-- Every step keeps the control state legal: the mode exists, absent fields stay 0, MPP stays a mode that exists, the
low bits of xepc stay 0, MODE of xtvec stays 0 or 1, reserved delegation and interrupt bits stay 0 (R29, R331 to
R338). -/
def Obligations.ControlStateStaysLegal : Prop :=
  ∀ s t : State, s.ControlLegal → step s = .next t → t.ControlLegal

/-- R322: only a trap return lowers the privilege, and under `terminal` nothing changes it. -/
def Obligations.OnlyTrapReturnsLowerPrivilege : Prop :=
  ∀ s t : State, step s = .next t →
    (t.priv.code < s.priv.code →
      ∃ i v, isTrapReturn i = true ∧ (v = s.samplePlatform ∨
        v = { s.samplePlatform with draws := s.samplePlatform.draws + 1 }) ∧ exec i v = .next t) ∧
    (s.cfg.trapModel = .terminal → t.priv = s.priv ∧ t.csr = s.csr)

/-- U-mode cannot change machine or supervisor state: when an instruction leaves the hart in U-mode, the supervisor and
machine registers read as before, but for the bits of `mstatus`, `mie` and `mip` that U-mode shares. -/
def Obligations.UserModeCannotChangeHigherState : Prop :=
  ∀ (i : Instr) (s t : State), s.priv = .u → exec i s = .next t → t.priv = .u →
    (∀ c ∈ supervisorCsrs ++ machineCsrs, c ∉ [Csr.mstatus, .sstatus, .mie, .sie, .mip, .sip] →
      t.csrRead c = s.csrRead c) ∧
    (∀ k, k ≠ 0 → k ≠ 4 → (t.csrRead .mstatus).getLsbD k = (s.csrRead .mstatus).getLsbD k) ∧
    (∀ k, ¬ (InMideleg s k ∧ InSideleg s k ∧ (k = 0 ∨ k = 4 ∨ k = 8)) →
      t.csr.mie.getLsbD k = s.csr.mie.getLsbD k ∧ t.csr.mip.getLsbD k = s.csr.mip.getLsbD k)

/-- R321: the computational, memory, fence and control transfer instructions do in every mode, with any CSRs, what they do
under `terminal`, and do not see mode or CSRs. -/
def Obligations.ModeDoesNotMatterToOrdinaryInstructions : Prop :=
  ∀ (i : Instr) (s t : State) (p : Mode) (c : CsrFile) (m : TrapModel), modeIndependent i = true →
    s.cfg.trapModel = .terminal → exec i s = .next t →
    exec i { s with priv := p, csr := c, cfg := { s.cfg with trapModel := m } } =
      .next { t with priv := p, csr := c, cfg := { s.cfg with trapModel := m } }

/-! ## Reset -/

/-- The launched hart, whatever the parameters, the launch image and the unspecified values (R40, R360): MIE and MPRV 0,
every hardwired field at its fixed value, which leaves given CSRs that respect them as they are but for MIE and MPRV. That a
given MPP or MODE of a reserved value becomes a legal one is the model's choice, log 8. That a byte outside the image reads
as a free value of its address is the model's choice for R362, log 9; that the rest is an argument is R366's. -/
def Obligations.LaunchedHartIsAtReset : Prop :=
  ∀ (cfg : Config) (image : Memory) (x : Vector Word 32) (csr : CsrFile),
    (State.launch cfg image x csr).pc = cfg.resetPc ∧ (State.launch cfg image x csr).priv = .m ∧
    (State.launch cfg image x csr).readX 0#5 = 0 ∧
    (∀ r : Reg, r ≠ 0#5 → (State.launch cfg image x csr).readX r = x[r.toNat]'r.isLt) ∧
    (State.launch cfg image x csr).csr.mstatus.mie = false ∧ (State.launch cfg image x csr).csr.mstatus.mprv = false ∧
    (State.launch cfg image x csr).csr.Legal cfg ∧
    (csr.Legal cfg →
      (State.launch cfg image x csr).csr = { csr with mstatus := { csr.mstatus with mie := false, mprv := false } }) ∧
    (∀ a : Word, (State.launch cfg image x csr).inStored a = false) ∧
    (∀ a : Word, (State.launch cfg image x csr).readByte a = byteOrLaunch a.toNat (image.read a.toNat))

/-- `State.reset` is one of the launches, and the invariants hold at it: `pc` aligned, memory canonical, control state
legal. The parameters and register values of `State.reset` are the model's, logs 1 to 8. -/
def Obligations.ResetMeetsTheInvariants : Prop :=
  State.reset = State.launch Config.launchDefault [] (Vector.replicate 32 0) CsrFile.zero ∧
  State.reset.pcAligned ∧ State.reset.memoryCanonical ∧ State.reset.ControlLegal
end

