-- ==== Sys2Proof/Laws/State.lean ====
section
/-! SUPPORT. One lemma for each field of the state and each update of it, so that no proof unfolds a record update. -/

set_option Elab.async false

namespace Sys2Proof.Machine

/-! ## pc -/

@[simp] theorem State.setPc_cfg (s : State) (t : Word) : (s.setPc t).cfg = s.cfg := rfl
@[simp] theorem State.setPc_x (s : State) (t : Word) : (s.setPc t).x = s.x := rfl
@[simp] theorem State.setPc_pc (s : State) (t : Word) : (s.setPc t).pc = t := rfl
@[simp] theorem State.setPc_priv (s : State) (t : Word) : (s.setPc t).priv = s.priv := rfl
@[simp] theorem State.setPc_csr (s : State) (t : Word) : (s.setPc t).csr = s.csr := rfl
@[simp] theorem State.setPc_mem (s : State) (t : Word) : (s.setPc t).mem = s.mem := rfl
@[simp] theorem State.setPc_stored (s : State) (t : Word) : (s.setPc t).stored = s.stored := rfl
@[simp] theorem State.setPc_stalled (s : State) (t : Word) : (s.setPc t).stalled = s.stalled := rfl
@[simp] theorem State.setPc_draws (s : State) (t : Word) : (s.setPc t).draws = s.draws := rfl

@[simp] theorem State.advance_cfg (s : State) : (s.advance).cfg = s.cfg := rfl
@[simp] theorem State.advance_x (s : State) : (s.advance).x = s.x := rfl
@[simp] theorem State.advance_pc (s : State) : (s.advance).pc = s.pc + 4 := rfl
@[simp] theorem State.advance_priv (s : State) : (s.advance).priv = s.priv := rfl
@[simp] theorem State.advance_csr (s : State) : (s.advance).csr = s.csr := rfl
@[simp] theorem State.advance_mem (s : State) : (s.advance).mem = s.mem := rfl
@[simp] theorem State.advance_stored (s : State) : (s.advance).stored = s.stored := rfl
@[simp] theorem State.advance_stalled (s : State) : (s.advance).stalled = s.stalled := rfl
@[simp] theorem State.advance_draws (s : State) : (s.advance).draws = s.draws := rfl

/-! ## Integer registers -/

@[simp] theorem State.writeX_cfg (s : State) (r : Reg) (v : Word) : (s.writeX r v).cfg = s.cfg := by
  unfold State.writeX; split <;> rfl
@[simp] theorem State.writeX_pc (s : State) (r : Reg) (v : Word) : (s.writeX r v).pc = s.pc := by
  unfold State.writeX; split <;> rfl
@[simp] theorem State.writeX_priv (s : State) (r : Reg) (v : Word) : (s.writeX r v).priv = s.priv := by
  unfold State.writeX; split <;> rfl
@[simp] theorem State.writeX_csr (s : State) (r : Reg) (v : Word) : (s.writeX r v).csr = s.csr := by
  unfold State.writeX; split <;> rfl
@[simp] theorem State.writeX_mem (s : State) (r : Reg) (v : Word) : (s.writeX r v).mem = s.mem := by
  unfold State.writeX; split <;> rfl
@[simp] theorem State.writeX_stored (s : State) (r : Reg) (v : Word) : (s.writeX r v).stored = s.stored := by
  unfold State.writeX; split <;> rfl
@[simp] theorem State.writeX_stalled (s : State) (r : Reg) (v : Word) : (s.writeX r v).stalled = s.stalled := by
  unfold State.writeX; split <;> rfl
@[simp] theorem State.writeX_draws (s : State) (r : Reg) (v : Word) : (s.writeX r v).draws = s.draws := by
  unfold State.writeX; split <;> rfl

theorem State.writeX_x (s : State) (r : Reg) (v : Word) :
    (s.writeX r v).x = if r = 0#5 then s.x else s.x.set r.toNat v r.isLt := by
  unfold State.writeX; split <;> rfl

/-! ## Memory -/

@[simp] theorem State.writeByte_cfg (s : State) (a : Word) (b : Byte) : (s.writeByte a b).cfg = s.cfg := rfl
@[simp] theorem State.writeByte_x (s : State) (a : Word) (b : Byte) : (s.writeByte a b).x = s.x := rfl
@[simp] theorem State.writeByte_pc (s : State) (a : Word) (b : Byte) : (s.writeByte a b).pc = s.pc := rfl
@[simp] theorem State.writeByte_priv (s : State) (a : Word) (b : Byte) : (s.writeByte a b).priv = s.priv := rfl
@[simp] theorem State.writeByte_csr (s : State) (a : Word) (b : Byte) : (s.writeByte a b).csr = s.csr := rfl
@[simp] theorem State.writeByte_mem (s : State) (a : Word) (b : Byte) :
    (s.writeByte a b).mem = s.mem.write a.toNat b := rfl
@[simp] theorem State.writeByte_stored (s : State) (a : Word) (b : Byte) :
    (s.writeByte a b).stored = (a.toNat, s.mem.read a.toNat) :: s.stored := rfl
@[simp] theorem State.writeByte_stalled (s : State) (a : Word) (b : Byte) : (s.writeByte a b).stalled = s.stalled :=
  rfl
@[simp] theorem State.writeByte_draws (s : State) (a : Word) (b : Byte) : (s.writeByte a b).draws = s.draws := rfl

@[simp] theorem State.writeBytes_cfg (s : State) (a v : Word) (n : Nat) : (s.writeBytes a v n).cfg = s.cfg := by
  induction n generalizing s a v with
  | zero => rfl
  | succ n ih => exact (ih ..).trans (State.writeByte_cfg ..)
@[simp] theorem State.writeBytes_x (s : State) (a v : Word) (n : Nat) : (s.writeBytes a v n).x = s.x := by
  induction n generalizing s a v with
  | zero => rfl
  | succ n ih => exact (ih ..).trans (State.writeByte_x ..)
@[simp] theorem State.writeBytes_pc (s : State) (a v : Word) (n : Nat) : (s.writeBytes a v n).pc = s.pc := by
  induction n generalizing s a v with
  | zero => rfl
  | succ n ih => exact (ih ..).trans (State.writeByte_pc ..)
@[simp] theorem State.writeBytes_priv (s : State) (a v : Word) (n : Nat) : (s.writeBytes a v n).priv = s.priv := by
  induction n generalizing s a v with
  | zero => rfl
  | succ n ih => exact (ih ..).trans (State.writeByte_priv ..)
@[simp] theorem State.writeBytes_csr (s : State) (a v : Word) (n : Nat) : (s.writeBytes a v n).csr = s.csr := by
  induction n generalizing s a v with
  | zero => rfl
  | succ n ih => exact (ih ..).trans (State.writeByte_csr ..)
@[simp] theorem State.writeBytes_stalled (s : State) (a v : Word) (n : Nat) : (s.writeBytes a v n).stalled = s.stalled := by
  induction n generalizing s a v with
  | zero => rfl
  | succ n ih => exact (ih ..).trans (State.writeByte_stalled ..)
@[simp] theorem State.writeBytes_draws (s : State) (a v : Word) (n : Nat) : (s.writeBytes a v n).draws = s.draws := by
  induction n generalizing s a v with
  | zero => rfl
  | succ n ih => exact (ih ..).trans (State.writeByte_draws ..)

@[simp] theorem State.syncFetch_cfg (s : State) : (s.syncFetch).cfg = s.cfg := rfl
@[simp] theorem State.syncFetch_x (s : State) : (s.syncFetch).x = s.x := rfl
@[simp] theorem State.syncFetch_pc (s : State) : (s.syncFetch).pc = s.pc := rfl
@[simp] theorem State.syncFetch_priv (s : State) : (s.syncFetch).priv = s.priv := rfl
@[simp] theorem State.syncFetch_csr (s : State) : (s.syncFetch).csr = s.csr := rfl
@[simp] theorem State.syncFetch_mem (s : State) : (s.syncFetch).mem = s.mem := rfl
@[simp] theorem State.syncFetch_stored (s : State) : (s.syncFetch).stored = [] := rfl
@[simp] theorem State.syncFetch_stalled (s : State) : (s.syncFetch).stalled = s.stalled := rfl
@[simp] theorem State.syncFetch_draws (s : State) : (s.syncFetch).draws = s.draws := rfl

/-! ## Control and status registers -/

@[simp] theorem State.csrWrite_cfg (s : State) (c : Csr) (v : Word) : (s.csrWrite c v).cfg = s.cfg := rfl
@[simp] theorem State.csrWrite_x (s : State) (c : Csr) (v : Word) : (s.csrWrite c v).x = s.x := rfl
@[simp] theorem State.csrWrite_pc (s : State) (c : Csr) (v : Word) : (s.csrWrite c v).pc = s.pc := rfl
@[simp] theorem State.csrWrite_priv (s : State) (c : Csr) (v : Word) : (s.csrWrite c v).priv = s.priv := rfl
@[simp] theorem State.csrWrite_csr (s : State) (c : Csr) (v : Word) : (s.csrWrite c v).csr = s.csrFileWrite v c := rfl
@[simp] theorem State.csrWrite_mem (s : State) (c : Csr) (v : Word) : (s.csrWrite c v).mem = s.mem := rfl
@[simp] theorem State.csrWrite_stored (s : State) (c : Csr) (v : Word) : (s.csrWrite c v).stored = s.stored := rfl
@[simp] theorem State.csrWrite_stalled (s : State) (c : Csr) (v : Word) : (s.csrWrite c v).stalled = s.stalled := rfl
@[simp] theorem State.csrWrite_draws (s : State) (c : Csr) (v : Word) : (s.csrWrite c v).draws = s.draws := rfl

/-! ## Traps -/

@[simp] theorem State.takeTrap_cfg (s : State) (i : Bool) (c : Nat) (tval epc : Word) (y : Mode) :
    (s.takeTrap i c tval epc y).cfg = s.cfg := rfl
@[simp] theorem State.takeTrap_x (s : State) (i : Bool) (c : Nat) (tval epc : Word) (y : Mode) :
    (s.takeTrap i c tval epc y).x = s.x := rfl
@[simp] theorem State.takeTrap_pc (s : State) (i : Bool) (c : Nat) (tval epc : Word) (y : Mode) :
    (s.takeTrap i c tval epc y).pc = trapTarget (s.csr.tvec y) i c := rfl
@[simp] theorem State.takeTrap_priv (s : State) (i : Bool) (c : Nat) (tval epc : Word) (y : Mode) :
    (s.takeTrap i c tval epc y).priv = y := rfl
@[simp] theorem State.takeTrap_csr (s : State) (i : Bool) (c : Nat) (tval epc : Word) (y : Mode) :
    (s.takeTrap i c tval epc y).csr = s.csr.enterTrap s.cfg s.priv (causeWord i c) tval epc y := rfl
@[simp] theorem State.takeTrap_mem (s : State) (i : Bool) (c : Nat) (tval epc : Word) (y : Mode) :
    (s.takeTrap i c tval epc y).mem = s.mem := rfl
@[simp] theorem State.takeTrap_stored (s : State) (i : Bool) (c : Nat) (tval epc : Word) (y : Mode) :
    (s.takeTrap i c tval epc y).stored = s.stored := rfl
@[simp] theorem State.takeTrap_stalled (s : State) (i : Bool) (c : Nat) (tval epc : Word) (y : Mode) :
    (s.takeTrap i c tval epc y).stalled = s.stalled := rfl
@[simp] theorem State.takeTrap_draws (s : State) (i : Bool) (c : Nat) (tval epc : Word) (y : Mode) :
    (s.takeTrap i c tval epc y).draws = s.draws := rfl

@[simp] theorem State.trapReturn_cfg (s : State) (y : Mode) : (s.trapReturn y).cfg = s.cfg := rfl
@[simp] theorem State.trapReturn_x (s : State) (y : Mode) : (s.trapReturn y).x = s.x := rfl
@[simp] theorem State.trapReturn_pc (s : State) (y : Mode) : (s.trapReturn y).pc = clearLow2 (s.csr.epc y) := rfl
@[simp] theorem State.trapReturn_priv (s : State) (y : Mode) :
    (s.trapReturn y).priv = s.csr.mstatus.returnMode s.cfg y :=
  rfl
@[simp] theorem State.trapReturn_csr (s : State) (y : Mode) :
    (s.trapReturn y).csr = { s.csr with mstatus := s.csr.mstatus.leaveTrap s.cfg y } := rfl
@[simp] theorem State.trapReturn_mem (s : State) (y : Mode) : (s.trapReturn y).mem = s.mem := rfl
@[simp] theorem State.trapReturn_stored (s : State) (y : Mode) : (s.trapReturn y).stored = s.stored := rfl
@[simp] theorem State.trapReturn_stalled (s : State) (y : Mode) : (s.trapReturn y).stalled = s.stalled := rfl
@[simp] theorem State.trapReturn_draws (s : State) (y : Mode) : (s.trapReturn y).draws = s.draws := rfl

@[simp] theorem State.takeIrq_cfg (s : State) (c : Irq) : (s.takeIrq c).cfg = s.cfg := rfl
@[simp] theorem State.takeIrq_x (s : State) (c : Irq) : (s.takeIrq c).x = s.x := rfl
@[simp] theorem State.takeIrq_pc (s : State) (c : Irq) :
    (s.takeIrq c).pc = trapTarget (s.csr.tvec (s.irqHandler c)) true c.code := rfl
@[simp] theorem State.takeIrq_priv (s : State) (c : Irq) : (s.takeIrq c).priv = s.irqHandler c := rfl
@[simp] theorem State.takeIrq_csr (s : State) (c : Irq) :
    (s.takeIrq c).csr = s.csr.enterTrap s.cfg s.priv (causeWord true c.code) 0 s.pc (s.irqHandler c) := rfl
@[simp] theorem State.takeIrq_mem (s : State) (c : Irq) : (s.takeIrq c).mem = s.mem := rfl
@[simp] theorem State.takeIrq_stored (s : State) (c : Irq) : (s.takeIrq c).stored = s.stored := rfl
@[simp] theorem State.takeIrq_stalled (s : State) (c : Irq) : (s.takeIrq c).stalled = s.stalled := rfl
@[simp] theorem State.takeIrq_draws (s : State) (c : Irq) : (s.takeIrq c).draws = s.draws := rfl

/-! ## WFI -/

@[simp] theorem State.stall_cfg (s : State) : (s.stall).cfg = s.cfg := rfl
@[simp] theorem State.stall_x (s : State) : (s.stall).x = s.x := rfl
@[simp] theorem State.stall_pc (s : State) :
    (s.stall).pc = if s.anyIrqPending || Config.freeWfiEnds s.draws then s.pc + 4 else s.pc := rfl
@[simp] theorem State.stall_priv (s : State) : (s.stall).priv = s.priv := rfl
@[simp] theorem State.stall_csr (s : State) : (s.stall).csr = s.csr := rfl
@[simp] theorem State.stall_mem (s : State) : (s.stall).mem = s.mem := rfl
@[simp] theorem State.stall_stored (s : State) : (s.stall).stored = s.stored := rfl
@[simp] theorem State.stall_stalled (s : State) :
    (s.stall).stalled = !(s.anyIrqPending || Config.freeWfiEnds s.draws) := rfl
@[simp] theorem State.stall_draws (s : State) : (s.stall).draws = s.draws + 1 := rfl

/-! ## Platform inputs -/

@[simp] theorem State.samplePlatform_cfg (s : State) : (s.samplePlatform).cfg = s.cfg := by
  unfold State.samplePlatform; split
  · rfl
  · split <;> rfl
@[simp] theorem State.samplePlatform_x (s : State) : (s.samplePlatform).x = s.x := by
  unfold State.samplePlatform; split
  · rfl
  · split <;> rfl
@[simp] theorem State.samplePlatform_pc (s : State) : (s.samplePlatform).pc = s.pc := by
  unfold State.samplePlatform; split
  · rfl
  · split <;> rfl
@[simp] theorem State.samplePlatform_priv (s : State) : (s.samplePlatform).priv = s.priv := by
  unfold State.samplePlatform; split
  · rfl
  · split <;> rfl
@[simp] theorem State.samplePlatform_mem (s : State) : (s.samplePlatform).mem = s.mem := by
  unfold State.samplePlatform; split
  · rfl
  · split <;> rfl
@[simp] theorem State.samplePlatform_stored (s : State) : (s.samplePlatform).stored = s.stored := by
  unfold State.samplePlatform; split
  · rfl
  · split <;> rfl
@[simp] theorem State.samplePlatform_stalled (s : State) : (s.samplePlatform).stalled = s.stalled := by
  unfold State.samplePlatform; split
  · rfl
  · split <;> rfl

/-! ## Loading a word -/

@[simp] theorem State.placeWord_cfg (s : State) (a : Word) (w : InstWord) : (s.placeWord a w).cfg = s.cfg := rfl
@[simp] theorem State.placeWord_x (s : State) (a : Word) (w : InstWord) : (s.placeWord a w).x = s.x := rfl
@[simp] theorem State.placeWord_pc (s : State) (a : Word) (w : InstWord) : (s.placeWord a w).pc = s.pc := rfl
@[simp] theorem State.placeWord_priv (s : State) (a : Word) (w : InstWord) : (s.placeWord a w).priv = s.priv := rfl
@[simp] theorem State.placeWord_csr (s : State) (a : Word) (w : InstWord) : (s.placeWord a w).csr = s.csr := rfl
@[simp] theorem State.placeWord_stalled (s : State) (a : Word) (w : InstWord) :
    (s.placeWord a w).stalled = s.stalled := rfl
@[simp] theorem State.placeWord_draws (s : State) (a : Word) (w : InstWord) : (s.placeWord a w).draws = s.draws := rfl

@[simp] theorem State.loadAtPc_cfg (s : State) (w : InstWord) : (s.loadAtPc w).cfg = s.cfg := rfl
@[simp] theorem State.loadAtPc_x (s : State) (w : InstWord) : (s.loadAtPc w).x = s.x := rfl
@[simp] theorem State.loadAtPc_pc (s : State) (w : InstWord) : (s.loadAtPc w).pc = s.pc := rfl
@[simp] theorem State.loadAtPc_priv (s : State) (w : InstWord) : (s.loadAtPc w).priv = s.priv := rfl
@[simp] theorem State.loadAtPc_csr (s : State) (w : InstWord) : (s.loadAtPc w).csr = s.csr := rfl
@[simp] theorem State.loadAtPc_mem (s : State) (w : InstWord) : (s.loadAtPc w).mem = (s.placeWord s.pc w).mem := rfl
@[simp] theorem State.loadAtPc_stored (s : State) (w : InstWord) :
    (s.loadAtPc w).stored = (s.placeWord s.pc w).stored := rfl
@[simp] theorem State.loadAtPc_stalled (s : State) (w : InstWord) : (s.loadAtPc w).stalled = false := rfl
@[simp] theorem State.loadAtPc_draws (s : State) (w : InstWord) : (s.loadAtPc w).draws = s.draws := rfl

/-! ## The hardwired fields of mstatus -/

@[simp] theorem mppHolds_of_hasU {cfg : Config} (h : cfg.hasU = true) (y : Mode) : mppHolds cfg y = y := by
  simp [mppHolds, h]
@[simp] theorem mppHolds_of_not_hasU {cfg : Config} (h : cfg.hasU = false) (y : Mode) : mppHolds cfg y = .m := by
  simp [mppHolds, h]
@[simp] theorem mppHolds_mppHolds (cfg : Config) (y : Mode) : mppHolds cfg (mppHolds cfg y) = mppHolds cfg y := by
  cases h : cfg.hasU <;> simp [h]
@[simp] theorem Mstatus.hardwire_mie (cfg : Config) (f : Mstatus) : (f.hardwire cfg).mie = f.mie := rfl
@[simp] theorem Mstatus.hardwire_mpie (cfg : Config) (f : Mstatus) : (f.hardwire cfg).mpie = f.mpie := rfl
@[simp] theorem Mstatus.hardwire_mpp (cfg : Config) (f : Mstatus) : (f.hardwire cfg).mpp = mppHolds cfg f.mpp := rfl
@[simp] theorem Mstatus.hardwire_hardwire (cfg : Config) (f : Mstatus) :
    (f.hardwire cfg).hardwire cfg = f.hardwire cfg := by
  simp only [Mstatus.hardwire, mppHolds_mppHolds, Bool.and_self_left]

/-! ## The launched hart -/

theorem State.reset_eq_launch :
    State.reset = State.launch Config.launchDefault [] (Vector.replicate 32 0) CsrFile.zero := rfl

@[simp] theorem State.launch_cfg (cfg : Config) (image : Memory) (x : Vector Word 32) (c : CsrFile) :
    (State.launch cfg image x c).cfg = cfg := rfl
@[simp] theorem State.launch_x (cfg : Config) (image : Memory) (x : Vector Word 32) (c : CsrFile) :
    (State.launch cfg image x c).x = x := rfl
@[simp] theorem State.launch_pc (cfg : Config) (image : Memory) (x : Vector Word 32) (c : CsrFile) :
    (State.launch cfg image x c).pc = cfg.resetPc := rfl
@[simp] theorem State.launch_priv (cfg : Config) (image : Memory) (x : Vector Word 32) (c : CsrFile) :
    (State.launch cfg image x c).priv = .m := rfl
@[simp] theorem State.launch_mem (cfg : Config) (image : Memory) (x : Vector Word 32) (c : CsrFile) :
    (State.launch cfg image x c).mem = image := rfl
@[simp] theorem State.launch_csr (cfg : Config) (image : Memory) (x : Vector Word 32) (c : CsrFile) :
    (State.launch cfg image x c).csr = c.atReset cfg := rfl
@[simp] theorem State.launch_stored (cfg : Config) (image : Memory) (x : Vector Word 32) (c : CsrFile) :
    (State.launch cfg image x c).stored = [] := rfl
@[simp] theorem State.launch_stalled (cfg : Config) (image : Memory) (x : Vector Word 32) (c : CsrFile) :
    (State.launch cfg image x c).stalled = false := rfl
@[simp] theorem State.launch_draws (cfg : Config) (image : Memory) (x : Vector Word 32) (c : CsrFile) :
    (State.launch cfg image x c).draws = 0 := rfl

end Sys2Proof.Machine
end

