-- ==== Sys2Proof/Laws/Memory.lean ====
section
/-! SUPPORT. The laws of memory: reading after writing, and the canonical form that every memory operation keeps. -/

set_option Elab.async false

namespace Sys2Proof.Machine

/-! ## Cells -/

theorem Memory.read_write (m : Memory) (a : Nat) (b : Byte) (c : Nat) :
    (m.write a b).read c = if c = a then some b else m.read c := by
  induction m with
  | nil => simp [Memory.write, Memory.read, eq_comm]
  | cons d rest ih =>
    unfold Memory.write
    split
    · simp [Memory.read, eq_comm]
    · split
      · subst_vars
        simp only [Memory.read, eq_comm]
        split <;> rfl
      · simp only [Memory.read, ih]
        split
        · subst_vars; split
          · omega
          · rfl
        · rfl

@[simp] theorem Memory.read_write_same (m : Memory) (a : Nat) (b : Byte) : (m.write a b).read a = some b := by
  simp [Memory.read_write]

theorem Memory.read_write_other (m : Memory) (a : Nat) (b : Byte) {c : Nat} (h : c ≠ a) :
    (m.write a b).read c = m.read c := by
  simp [Memory.read_write, h]

/-- The canonical form as a statement about lists: addresses rise strictly and each is below 2^64. -/
theorem Memory.wf_iff (m : Memory) :
    m.wf = true ↔ m.Pairwise (fun c d => c.1 < d.1) ∧ ∀ c ∈ m, c.1 < 2 ^ 64 := by
  induction m with
  | nil => simp [Memory.wf]
  | cons c rest ih =>
    cases rest with
    | nil => simp [Memory.wf]
    | cons d rest =>
      simp only [Memory.wf, Bool.and_eq_true, decide_eq_true_eq, ih, List.pairwise_cons, List.forall_mem_cons]
      constructor
      · rintro ⟨hcd, ⟨hd, hp⟩, hb, hr⟩
        exact ⟨⟨⟨hcd, fun e he => hcd.trans (hd e he)⟩, hd, hp⟩, hcd.trans hb, hb, hr⟩
      · rintro ⟨⟨⟨hcd, -⟩, hd, hp⟩, -, hb, hr⟩
        exact ⟨hcd, ⟨hd, hp⟩, hb, hr⟩

theorem Memory.mem_write {m : Memory} {a : Nat} {b : Byte} {c : Host.Cell} (h : c ∈ m.write a b) :
    c = (a, b) ∨ c ∈ m := by
  induction m with
  | nil => simpa [Memory.write] using h
  | cons d rest ih =>
    unfold Memory.write at h
    split at h
    · simpa using h
    · split at h
      · rcases List.mem_cons.1 h with h | h
        · exact .inl h
        · exact .inr (List.mem_cons_of_mem _ h)
      · rcases List.mem_cons.1 h with h | h
        · exact .inr (h ▸ List.mem_cons_self)
        · exact (ih h).imp id (List.mem_cons_of_mem _)

/-- A write keeps the canonical form. -/
theorem Memory.wf_write {m : Memory} (hm : m.wf = true) {a : Nat} (ha : a < 2 ^ 64) (b : Byte) :
    (m.write a b).wf = true := by
  rw [Memory.wf_iff] at hm ⊢
  obtain ⟨hp, hb⟩ := hm
  refine ⟨?_, fun c hc => ?_⟩
  · induction m with
    | nil => simp [Memory.write]
    | cons d rest ih =>
      obtain ⟨hd, hr⟩ := List.pairwise_cons.1 hp
      unfold Memory.write
      split
      · refine List.pairwise_cons.2 ⟨fun e he => ?_, hp⟩
        rcases List.mem_cons.1 he with rfl | he
        · assumption
        · exact lt_trans ‹_› (hd e he)
      · split
        · subst_vars
          exact List.pairwise_cons.2 ⟨hd, hr⟩
        · refine List.pairwise_cons.2 ⟨fun e he => ?_, ih hr fun c hc => hb c (List.mem_cons_of_mem _ hc)⟩
          rcases Memory.mem_write he with rfl | he
          · show d.1 < a
            omega
          · exact hd e he
  · rcases Memory.mem_write hc with rfl | hc
    · exact ha
    · exact hb c hc

/-! ## Bytes of the machine -/

@[simp] theorem State.readByte_writeByte_same (s : State) (a : Word) (b : Byte) : (s.writeByte a b).readByte a = b := by
  simp [State.readByte, byteOrLaunch]

theorem State.readByte_writeByte_other (s : State) {a c : Word} (b : Byte) (h : c ≠ a) :
    (s.writeByte a b).readByte c = s.readByte c := by
  simp [State.readByte, Memory.read_write_other, BitVec.toNat_inj, h]

/-- A byte of memory depends on the memory alone. -/
theorem State.readByte_congr {s t : State} (h : t.mem = s.mem) (a : Word) : t.readByte a = s.readByte a := by
  unfold State.readByte; rw [h]

theorem State.readBytes_congr {s t : State} (h : t.mem = s.mem) (a : Word) (n : Nat) :
    t.readBytes a n = s.readBytes a n := by
  induction n generalizing a with
  | zero => rfl
  | succ n ih => rw [State.readBytes, State.readBytes, ih, State.readByte_congr h]

/-- A store leaves every byte outside its own alone. -/
theorem State.readByte_writeBytes_other (s : State) (a v : Word) (n : Nat) {c : Word}
    (h : ∀ j, j < n → c ≠ a + BitVec.ofNat 64 j) : (s.writeBytes a v n).readByte c = s.readByte c := by
  induction n generalizing s a v with
  | zero => rfl
  | succ n ih =>
    rw [State.writeBytes, ih, State.readByte_writeByte_other]
    · simpa using h 0 (Nat.succ_pos n)
    · intro j hj
      have := h (j + 1) (Nat.succ_lt_succ hj)
      rwa [Nat.add_comm j 1, BitVec.ofNat_add, ← BitVec.add_assoc] at this

/-! ## The canonical form is kept -/

theorem State.wf_writeByte {s : State} (h : s.mem.wf = true) (a : Word) (b : Byte) :
    (s.writeByte a b).mem.wf = true :=
  Memory.wf_write h a.isLt b

theorem State.wf_writeBytes {s : State} (h : s.mem.wf = true) (a v : Word) (n : Nat) :
    (s.writeBytes a v n).mem.wf = true := by
  induction n generalizing s a v with
  | zero => exact h
  | succ n ih => exact ih (State.wf_writeByte h a _) ..

theorem State.wf_placeWord {s : State} (h : s.mem.wf = true) (a : Word) (w : InstWord) :
    (s.placeWord a w).mem.wf = true :=
  Memory.wf_write (Memory.wf_write (Memory.wf_write (Memory.wf_write h a.isLt _) (a + 1).isLt _) (a + 2).isLt _)
    (a + 3).isLt _

theorem State.wf_loadAtPc {s : State} (h : s.mem.wf = true) (w : InstWord) : (s.loadAtPc w).mem.wf = true :=
  State.wf_placeWord h s.pc w

theorem State.wf_withFetchWord {s : State} (h : s.mem.wf = true) (nbits w : Nat) :
    (s.withFetchWord nbits w).mem.wf = true :=
  State.wf_loadAtPc h _

theorem State.wf_reset : State.reset.mem.wf = true := rfl

end Sys2Proof.Machine
end

