-- ==== Sys2Proof/Laws/Ops.lean ====
section
/-! SUPPORT. One lemma for each shared operation that says once everything it can do; a proof about the step cites these and does not unfold the operation. -/

set_option Elab.async false

namespace Sys2Proof.Machine

/-! ## Registers -/

theorem State.readX_congr {s t : State} (h : t.x = s.x) (r : Reg) : t.readX r = s.readX r := by
  unfold State.readX; simp only [h]

@[simp] theorem State.readX_zero (s : State) : s.readX 0#5 = 0 := rfl

theorem State.readX_writeX (s : State) (r : Reg) (v : Word) (q : Reg) :
    (s.writeX r v).readX q = if q = r ∧ q ≠ 0#5 then v else s.readX q := by
  unfold State.readX State.writeX
  by_cases hr : r = 0#5
  · by_cases hq : q = 0#5
    · simp [hq]
    · simp [hr, hq]
  · by_cases hq : q = 0#5
    · simp [hq]
    · by_cases e : q = r
      · subst e; simp [hq]
      · have hn : r.toNat ≠ q.toNat := fun h => e (BitVec.eq_of_toNat_eq h).symm
        simp [hq, hr, e, Vector.getElem_set_ne, hn]

/-- Writing a register and then moving `pc` is what `WritesRegister` says. -/
theorem writesRegister_writeX (s : State) (rd : Reg) (v p : Word) :
    WritesRegister rd v s ((s.writeX rd v).setPc p) := by
  intro r
  rw [State.readX_congr (State.setPc_x ..), State.readX_writeX]

/-! ## Addresses -/

theorem aligned4_iff (t : Word) : aligned4 t = true ↔ t.toNat % 4 = 0 := by
  unfold aligned4
  rw [beq_iff_eq, ← BitVec.toNat_inj]
  simp

theorem clearLow2_toNat (v : Word) : (clearLow2 v).toNat % 4 = 0 := by
  have h : (clearLow2 v).extractLsb' 0 2 = 0#2 := by
    unfold clearLow2
    ext i hi
    have : i = 0 ∨ i = 1 := by omega
    rcases this with rfl | rfl <;> simp
  exact (aligned4_iff _).1 (by simp [aligned4, h])

theorem advance_aligned {p : Word} (h : p.toNat % 4 = 0) : (p + 4).toNat % 4 = 0 := by
  rw [BitVec.toNat_add]
  simp
  omega

theorem trapTarget_aligned (v : Word) (i : Bool) (c : Nat) : (trapTarget v i c).toNat % 4 = 0 := by
  unfold trapTarget
  have h := clearLow2_toNat v
  split
  · exact h
  · rw [BitVec.toNat_add, BitVec.toNat_ofNat]
    omega

/-! ## Raising and returning -/

theorem State.raise_next {s t : State} {e : Exc} {v : Word} (h : s.raise e v = .next t) :
    s.cfg.trapModel = .privileged ∧ t = s.takeTrap false e.code v s.pc (s.exceptionHandler e.code) := by
  unfold State.raise at h
  split at h
  · cases h
  · exact ⟨‹_›, (Host.Outcome.next.inj h).symm⟩

theorem State.raise_not_refused {s : State} {e : Exc} {v : Word} {r : Refusal} : s.raise e v ≠ .refused r := by
  unfold State.raise; split <;> exact nofun

theorem State.illegal_next {s t : State} {i : Instr} (h : s.illegal i = .next t) :
    s.cfg.trapModel = .privileged ∧
      t = s.takeTrap false 2 (zext64 (encode i)) s.pc (s.exceptionHandler 2) := by
  unfold State.illegal at h
  obtain ⟨hp, ht⟩ := State.raise_next h
  exact ⟨hp, ht⟩

/-! ## The shared operations of the instructions -/

theorem State.load_next {s t : State} {w : Width} {f : Word → Word} {rd rs1 : Reg} {o : BitVec 12}
    (h : s.load w f rd rs1 o = .next t) :
    (s.checkAccess .read (effectiveAddress (s.readX rs1) o) w = .granted ∧
      t = (s.writeX rd (f (s.readBytes (effectiveAddress (s.readX rs1) o) w.bytes))).advance) ∨
    ∃ e, s.raise e (effectiveAddress (s.readX rs1) o) = .next t := by
  unfold State.load at h
  simp only at h
  split at h
  · exact .inl ⟨‹_›, (Host.Outcome.next.inj h).symm⟩
  · exact .inr ⟨_, h⟩
  · exact .inr ⟨_, h⟩
  · cases h

theorem State.store_next {s t : State} {w : Width} {rs2 rs1 : Reg} {o : BitVec 12}
    (h : s.store w rs2 rs1 o = .next t) :
    (s.checkAccess .write (effectiveAddress (s.readX rs1) o) w = .granted ∧
      t = (s.writeBytes (effectiveAddress (s.readX rs1) o) (s.readX rs2) w.bytes).advance) ∨
    ∃ e, s.raise e (effectiveAddress (s.readX rs1) o) = .next t := by
  unfold State.store at h
  simp only at h
  split at h
  · exact .inl ⟨‹_›, (Host.Outcome.next.inj h).symm⟩
  · exact .inr ⟨_, h⟩
  · exact .inr ⟨_, h⟩
  · cases h

theorem State.jump_next {s t : State} {rd : Reg} {a : Word} (h : s.jump rd a = .next t) :
    (aligned4 a = true ∧ t = (s.writeX rd (s.pc + 4)).setPc a) ∨
    s.raise .instructionAddressMisaligned a = .next t := by
  unfold State.jump at h
  split at h
  · exact .inl ⟨‹_›, (Host.Outcome.next.inj h).symm⟩
  · exact .inr h

theorem State.branch_next {s t : State} {b : Bool} {o : BitVec 13} (h : s.branch b o = .next t) :
    (b = false ∧ t = s.advance) ∨
    (b = true ∧ aligned4 (s.pc + sext64 o) = true ∧ t = s.setPc (s.pc + sext64 o)) ∨
    s.raise .instructionAddressMisaligned (s.pc + sext64 o) = .next t := by
  unfold State.branch at h
  cases b
  · exact .inl ⟨rfl, (Host.Outcome.next.inj h).symm⟩
  · simp only [Bool.not_true, Bool.false_eq_true, if_false] at h
    split at h
    · exact .inr (.inl ⟨rfl, ‹_›, (Host.Outcome.next.inj h).symm⟩)
    · exact .inr (.inr h)

theorem State.csrAccess_next {s t : State} {i : Instr} {rd : Reg} {n : CsrNumber} {w : Bool} {f : Word → Word}
    (h : s.csrAccess i rd n w f = .next t) :
    (∃ c, s.csrCheck n w = some c ∧
      t = ((if w then s.csrWrite c (f (s.csrRead c)) else s).writeX rd (s.csrRead c)).advance) ∨
    s.illegal i = .next t := by
  unfold State.csrAccess at h
  split at h
  · exact .inr h
  · exact .inl ⟨_, ‹_›, (Host.Outcome.next.inj h).symm⟩

theorem State.waitForInterrupt_next {s t : State} (h : s.waitForInterrupt = .next t) :
    t = s.stall ∨
    (s.cfg.trapModel = .privileged ∧ s.priv ≠ .m ∧ s.csr.mstatus.tw = true ∧
      State.illegal { s with stalled := false, draws := s.draws + 1 } .wfi = .next t) := by
  unfold State.waitForInterrupt at h
  split at h
  · rename_i c
    simp only [Bool.and_eq_true, State.privileged, beq_iff_eq, bne_iff_ne] at c
    exact .inr ⟨c.1.1.1, c.1.1.2, c.1.2, h⟩
  · exact .inl (Host.Outcome.next.inj h).symm

/-! ## Fetching and the cycle -/

/-- A fetch that answers a word answers the one its four fetched bytes make, and changes the counter of free values at
most. -/
theorem State.fetch_word {s after : State} {w : InstWord} (h : s.fetch = .word w after) :
    w = fetchedWord s ∧ (after = s ∨ after = { s with draws := s.draws + 1 }) := by
  unfold State.fetch at h
  simp only at h
  split at h
  · cases h
  · split at h
    · cases h
    · injection h with hw h
      refine ⟨by rw [← hw]; simp [fetchedWord, wordOfBytes, byteAddr], ?_⟩
      split at h
      · exact .inr h.symm
      · exact .inl h.symm

theorem State.runWord_next {s t : State} {w : InstWord} (h : s.runWord w = .next t) :
    (∃ i, decodeWord w = .ok i ∧ exec i s = .next t) ∨ s.raise .illegalInstruction (zext64 w) = .next t := by
  unfold State.runWord at h
  split at h
  · exact .inl ⟨_, ‹_›, h⟩
  · exact .inr h

theorem State.fetchAndRun_next {s t : State} (h : s.fetchAndRun = .next t) :
    (∃ w after, s.fetch = .word w after ∧ after.runWord w = .next t) ∨
    s.raise .instructionAccessFault s.pc = .next t := by
  unfold State.fetchAndRun at h
  split at h
  · exact .inl ⟨_, _, ‹_›, h⟩
  · exact .inr h
  · cases h

theorem State.cycle_next {s t : State} (h : s.cycle = .next t) :
    (s.stalled = true ∧ execWfi s = .next t) ∨
    (s.stalled = false ∧ ∃ c, s.selectIrq = some c ∧ t = s.takeIrq c) ∨
    (s.stalled = false ∧ s.selectIrq = none ∧ s.fetchAndRun = .next t) := by
  unfold State.cycle at h
  cases hs : s.stalled
  · rw [hs] at h
    simp only [Bool.false_eq_true, if_false] at h
    split at h
    · exact .inr (.inl ⟨rfl, _, ‹_›, (Host.Outcome.next.inj h).symm⟩)
    · exact .inr (.inr ⟨rfl, ‹_›, h⟩)
  · rw [hs] at h
    exact .inl ⟨rfl, h⟩

/-- Sampling changes `mip` and the counter of free values at most. -/
theorem State.samplePlatform_cases (s : State) :
    s.samplePlatform = s ∨
    (s.cfg.platform = .drawn ∧ s.cfg.trapModel = .privileged ∧
      s.samplePlatform = { s with
        csr := { s.csr with mip := viewWrite platformMask s.csr.mip (Config.freePlatformLines s.draws) }
        draws := s.draws + 1 }) := by
  unfold State.samplePlatform
  split
  · exact .inl rfl
  · split
    · rename_i h
      exact .inr ⟨‹_›, by simpa [State.privileged] using h, rfl⟩
    · exact .inl rfl

theorem State.samplePlatform_steady {s : State} (h : s.cfg.platform = .steady) : s.samplePlatform = s := by
  unfold State.samplePlatform; simp [h]

/-! ## What an instruction can do -/

/-- Every next state an instruction can have. -/
inductive Effect (i : Instr) (s : State) : State → Prop
  | write (rd : Reg) (v : Word) : destination i = some rd → Effect i s (s.writeX rd v).advance
  | link (rd : Reg) (a : Word) : destination i = some rd → aligned4 a = true →
      Effect i s ((s.writeX rd (s.pc + 4)).setPc a)
  | goto (a : Word) : aligned4 a = true → Effect i s (s.setPc a)
  | advance : Effect i s s.advance
  | store (a v : Word) (n : Nat) : isStore i = true → Effect i s (s.writeBytes a v n).advance
  | sync : i = .fenceI → Effect i s s.syncFetch.advance
  | csr (rd : Reg) (n : CsrNumber) (c : Csr) (v : Word) : destination i = some rd → s.csrCheck n true = some c →
      Effect i s ((s.csrWrite c v).writeX rd (s.csrRead c)).advance
  | ret (y : Mode) : isTrapReturn i = true → s.cfg.trapModel = .privileged →
      (y = .u ∧ userTraps s.cfg = true ∨ y = .s ∧ s.cfg.hasS = true ∧ s.priv ≠ .u ∨ y = .m ∧ s.priv = .m) →
      Effect i s (s.trapReturn y)
  | stall : i = .wfi → Effect i s s.stall
  | raise (e : Exc) (v : Word) : s.cfg.trapModel = .privileged →
      Effect i s (s.takeTrap false e.code v s.pc (s.exceptionHandler e.code))
  | timeout (v : Word) : i = .wfi → s.cfg.trapModel = .privileged →
      Effect i s ({ s with stalled := false, draws := s.draws + 1 }.takeTrap false 2 v s.pc (s.exceptionHandler 2))

theorem Effect.ofRaise {i : Instr} {s t : State} {e : Exc} {v : Word} (h : s.raise e v = .next t) : Effect i s t := by
  obtain ⟨hp, rfl⟩ := State.raise_next h
  exact .raise e v hp

theorem Effect.ofIllegal {i j : Instr} {s t : State} (h : s.illegal j = .next t) : Effect i s t := by
  unfold State.illegal at h
  exact Effect.ofRaise h

theorem Effect.ofWrite {i : Instr} {s t : State} {rd : Reg} {v : Word} (d : destination i = some rd)
    (h : s.writeAndAdvance rd v = .next t) : Effect i s t := by
  cases h
  exact .write rd v d

theorem Effect.ofLoad {i : Instr} {s t : State} {w : Width} {f : Word → Word} {rd rs1 : Reg} {o : BitVec 12}
    (d : destination i = some rd) (h : s.load w f rd rs1 o = .next t) : Effect i s t := by
  rcases State.load_next h with ⟨-, rfl⟩ | ⟨e, h⟩
  · exact .write rd _ d
  · exact Effect.ofRaise h

theorem Effect.ofStore {i : Instr} {s t : State} {w : Width} {rs2 rs1 : Reg} {o : BitVec 12}
    (d : isStore i = true) (h : s.store w rs2 rs1 o = .next t) : Effect i s t := by
  rcases State.store_next h with ⟨-, rfl⟩ | ⟨e, h⟩
  · exact .store _ _ _ d
  · exact Effect.ofRaise h

theorem Effect.ofJump {i : Instr} {s t : State} {rd : Reg} {a : Word} (d : destination i = some rd)
    (h : s.jump rd a = .next t) : Effect i s t := by
  rcases State.jump_next h with ⟨ha, rfl⟩ | h
  · exact .link rd a d ha
  · exact Effect.ofRaise h

theorem Effect.ofBranch {i : Instr} {s t : State} {b : Bool} {o : BitVec 13} (h : s.branch b o = .next t) :
    Effect i s t := by
  rcases State.branch_next h with ⟨-, rfl⟩ | ⟨-, ha, rfl⟩ | h
  · exact .advance
  · exact .goto _ ha
  · exact Effect.ofRaise h

theorem Effect.ofCsr {i : Instr} {s t : State} {rd : Reg} {n : CsrNumber} {w : Bool} {f : Word → Word}
    (d : destination i = some rd) (h : s.csrAccess i rd n w f = .next t) : Effect i s t := by
  rcases State.csrAccess_next h with ⟨c, hc, rfl⟩ | h
  · cases w
    · exact .write rd _ d
    · exact .csr rd n c _ d hc
  · exact Effect.ofIllegal h

theorem Effect.ofWfi {s t : State} (h : execWfi s = .next t) : Effect .wfi s t := by
  unfold execWfi at h
  split at h
  · exact Effect.ofIllegal h
  · rcases State.waitForInterrupt_next h with rfl | ⟨hp, -, -, h⟩
    · exact .stall rfl
    · obtain ⟨-, rfl⟩ := State.illegal_next h
      exact .timeout _ rfl hp

/-- Everything `exec` can answer with a next state. -/
theorem exec_effect {i : Instr} {s t : State} (h : exec i s = .next t) : Effect i s t := by
  cases i
  case addiw | slliw | srliw | sraiw | addw | subw | sllw | srlw | sraw => exact Effect.ofWrite rfl h
  case lui | auipc | addi | slti | sltiu | xori | ori | andi | slli | srli | srai => exact Effect.ofWrite rfl h
  case add | sub | sll | slt | sltu | xor | srl | sra | or | and => exact Effect.ofWrite rfl h
  case lwu | ld | lb | lh | lw | lbu | lhu => exact Effect.ofLoad rfl h
  case sd | sb | sh | sw => exact Effect.ofStore rfl h
  case jal | jalr => exact Effect.ofJump rfl h
  case beq | bne | blt | bge | bltu | bgeu => exact Effect.ofBranch h
  case csrrw => exact Effect.ofCsr rfl (i := .csrrw ..) (f := fun _ => s.readX _) h
  case csrrs => exact Effect.ofCsr rfl (i := .csrrs ..) (f := fun old => old ||| s.readX _) h
  case csrrc => exact Effect.ofCsr rfl (i := .csrrc ..) (f := fun old => old &&& ~~~(s.readX _)) h
  case csrrwi => exact Effect.ofCsr rfl (i := .csrrwi ..) (f := fun _ => zext64 _) h
  case csrrsi => exact Effect.ofCsr rfl (i := .csrrsi ..) (f := fun old => old ||| zext64 _) h
  case csrrci => exact Effect.ofCsr rfl (i := .csrrci ..) (f := fun old => old &&& ~~~(zext64 _)) h
  case fence => cases h; exact .advance
  case fenceI => cases h; exact .sync rfl
  case ecall =>
    rw [show exec .ecall s = execEcall s from rfl] at h
    unfold execEcall at h
    split at h <;> exact Effect.ofRaise h
  case ebreak => exact Effect.ofRaise h
  case uret =>
    rw [show exec .uret s = execUret s from rfl] at h
    unfold execUret at h
    split at h
    · rename_i c
      simp only [Bool.and_eq_true, State.privileged, beq_iff_eq] at c
      cases h
      exact .ret .u rfl c.1 (.inl ⟨rfl, c.2⟩)
    · exact Effect.ofIllegal h
  case sret =>
    rw [show exec .sret s = execSret s from rfl] at h
    unfold execSret at h
    split at h
    · rename_i c
      simp only [Bool.and_eq_true, State.privileged, beq_iff_eq, bne_iff_ne] at c
      cases h
      exact .ret .s rfl c.1.1.1 (.inr (.inl ⟨rfl, c.1.1.2, c.1.2⟩))
    · exact Effect.ofIllegal h
  case mret =>
    rw [show exec .mret s = execMret s from rfl] at h
    unfold execMret at h
    split at h
    · rename_i c
      simp only [Bool.and_eq_true, State.privileged, beq_iff_eq] at c
      cases h
      exact .ret .m rfl c.1 (.inr (.inr ⟨rfl, c.2⟩))
    · exact Effect.ofIllegal h
  case wfi => exact Effect.ofWfi h
  case sfenceVma rs1 rs2 =>
    rw [show exec (.sfenceVma rs1 rs2) s = execSfenceVma rs1 rs2 s from rfl] at h
    unfold execSfenceVma at h
    split at h
    · exact Effect.ofIllegal h
    · cases h; exact .advance

/-- Every next state of a step: from the sampled state `u`, the WFI in progress goes on, an interrupt is taken, an
instruction runs that the fetched word decodes to, or the fetch or the decoding raises; a fetch may have advanced the
counter of free values. -/
theorem step_cases {s t : State} (h : step s = .next t) :
    ∃ u, u = s.samplePlatform ∧
      ((u.stalled = true ∧ exec .wfi u = .next t) ∨
      (u.stalled = false ∧ ∃ c, u.selectIrq = some c ∧ t = u.takeIrq c) ∨
      (u.stalled = false ∧ u.selectIrq = none ∧
        ∃ v i, (v = u ∨ v = { u with draws := u.draws + 1 }) ∧ decodeWord (fetchedWord u) = .ok i ∧
          exec i v = .next t) ∨
      (u.stalled = false ∧ u.selectIrq = none ∧
        ∃ v e w, (v = u ∨ v = { u with draws := u.draws + 1 }) ∧ v.raise e w = .next t)) := by
  refine ⟨_, rfl, ?_⟩
  rcases State.cycle_next h with ⟨hs, h⟩ | ⟨hs, c, hc, rfl⟩ | ⟨hs, hn, h⟩
  · exact .inl ⟨hs, h⟩
  · exact .inr (.inl ⟨hs, c, hc, rfl⟩)
  · rcases State.fetchAndRun_next h with ⟨w, after, hf, h⟩ | h
    · obtain ⟨rfl, ha⟩ := State.fetch_word hf
      rcases State.runWord_next h with ⟨i, hd, h⟩ | h
      · exact .inr (.inr (.inl ⟨hs, hn, after, i, ha, hd, h⟩))
      · exact .inr (.inr (.inr ⟨hs, hn, after, _, _, ha, h⟩))
    · exact .inr (.inr (.inr ⟨hs, hn, _, _, _, .inl rfl, h⟩))

/-- A takeable interrupt is never handled below the current mode. -/
theorem State.selectIrq_handler {s : State} {c : Irq} (h : s.selectIrq = some c) :
    s.privileged = true ∧ s.irqTakeable c = true ∧ s.priv.code ≤ (s.irqHandler c).code := by
  unfold State.selectIrq at h
  split at h
  · obtain ⟨y, -, hf⟩ := List.exists_of_findSome?_eq_some h
    have hp := List.find?_some hf
    rw [Bool.and_eq_true] at hp
    refine ⟨‹_›, hp.2, ?_⟩
    have ht := hp.2
    simp only [State.irqTakeable, Bool.and_eq_true, Bool.or_eq_true, decide_eq_true_eq, beq_iff_eq] at ht
    rcases ht.2 with h | h
    · exact h.le
    · exact h.1 ▸ le_rfl
  · cases h

end Sys2Proof.Machine
end

