-- ==== Sys2Proof/Laws/PerInstr.lean ====
section
/-! SUPPORT. A family of lemmas with one member for each instruction: every encoding has 11 in bits 1-0, the mark of a 32-bit instruction (`spec/30_encoding.md` R90). -/

set_option Elab.async false

namespace Sys2Proof.Laws.EncodedLength

/-- Bits 1-0 of the word are 11 (R90). -/
def Statement (i : Instr) : Prop := ((encode i).getLsbD 0 && (encode i).getLsbD 1) = true

theorem addiw (rd rs1 : Reg) (imm : BitVec 12) : Statement (.addiw rd rs1 imm) := by
  simp [Statement, encode, encIType]

theorem slliw (rd rs1 : Reg) (shamt : BitVec 5) : Statement (.slliw rd rs1 shamt) := by
  simp [Statement, encode, encShift32Type]

theorem srliw (rd rs1 : Reg) (shamt : BitVec 5) : Statement (.srliw rd rs1 shamt) := by
  simp [Statement, encode, encShift32Type]

theorem sraiw (rd rs1 : Reg) (shamt : BitVec 5) : Statement (.sraiw rd rs1 shamt) := by
  simp [Statement, encode, encShift32Type]

theorem addw (rd rs1 rs2 : Reg) : Statement (.addw rd rs1 rs2) := by
  simp [Statement, encode, encRType]

theorem subw (rd rs1 rs2 : Reg) : Statement (.subw rd rs1 rs2) := by
  simp [Statement, encode, encRType]

theorem sllw (rd rs1 rs2 : Reg) : Statement (.sllw rd rs1 rs2) := by
  simp [Statement, encode, encRType]

theorem srlw (rd rs1 rs2 : Reg) : Statement (.srlw rd rs1 rs2) := by
  simp [Statement, encode, encRType]

theorem sraw (rd rs1 rs2 : Reg) : Statement (.sraw rd rs1 rs2) := by
  simp [Statement, encode, encRType]

theorem lwu (rd rs1 : Reg) (offset : BitVec 12) : Statement (.lwu rd rs1 offset) := by
  simp [Statement, encode, encIType]

theorem ld (rd rs1 : Reg) (offset : BitVec 12) : Statement (.ld rd rs1 offset) := by
  simp [Statement, encode, encIType]

theorem sd (rs2 rs1 : Reg) (offset : BitVec 12) : Statement (.sd rs2 rs1 offset) := by
  simp [Statement, encode, encSType]

theorem lui (rd : Reg) (imm : BitVec 20) : Statement (.lui rd imm) := by
  simp [Statement, encode, encUType]

theorem auipc (rd : Reg) (imm : BitVec 20) : Statement (.auipc rd imm) := by
  simp [Statement, encode, encUType]

theorem addi (rd rs1 : Reg) (imm : BitVec 12) : Statement (.addi rd rs1 imm) := by
  simp [Statement, encode, encIType]

theorem slti (rd rs1 : Reg) (imm : BitVec 12) : Statement (.slti rd rs1 imm) := by
  simp [Statement, encode, encIType]

theorem sltiu (rd rs1 : Reg) (imm : BitVec 12) : Statement (.sltiu rd rs1 imm) := by
  simp [Statement, encode, encIType]

theorem xori (rd rs1 : Reg) (imm : BitVec 12) : Statement (.xori rd rs1 imm) := by
  simp [Statement, encode, encIType]

theorem ori (rd rs1 : Reg) (imm : BitVec 12) : Statement (.ori rd rs1 imm) := by
  simp [Statement, encode, encIType]

theorem andi (rd rs1 : Reg) (imm : BitVec 12) : Statement (.andi rd rs1 imm) := by
  simp [Statement, encode, encIType]

theorem slli (rd rs1 : Reg) (shamt : BitVec 6) : Statement (.slli rd rs1 shamt) := by
  simp [Statement, encode, encShift64Type]

theorem srli (rd rs1 : Reg) (shamt : BitVec 6) : Statement (.srli rd rs1 shamt) := by
  simp [Statement, encode, encShift64Type]

theorem srai (rd rs1 : Reg) (shamt : BitVec 6) : Statement (.srai rd rs1 shamt) := by
  simp [Statement, encode, encShift64Type]

theorem add (rd rs1 rs2 : Reg) : Statement (.add rd rs1 rs2) := by
  simp [Statement, encode, encRType]

theorem sub (rd rs1 rs2 : Reg) : Statement (.sub rd rs1 rs2) := by
  simp [Statement, encode, encRType]

theorem sll (rd rs1 rs2 : Reg) : Statement (.sll rd rs1 rs2) := by
  simp [Statement, encode, encRType]

theorem slt (rd rs1 rs2 : Reg) : Statement (.slt rd rs1 rs2) := by
  simp [Statement, encode, encRType]

theorem sltu (rd rs1 rs2 : Reg) : Statement (.sltu rd rs1 rs2) := by
  simp [Statement, encode, encRType]

theorem xor (rd rs1 rs2 : Reg) : Statement (.xor rd rs1 rs2) := by
  simp [Statement, encode, encRType]

theorem srl (rd rs1 rs2 : Reg) : Statement (.srl rd rs1 rs2) := by
  simp [Statement, encode, encRType]

theorem sra (rd rs1 rs2 : Reg) : Statement (.sra rd rs1 rs2) := by
  simp [Statement, encode, encRType]

theorem or (rd rs1 rs2 : Reg) : Statement (.or rd rs1 rs2) := by
  simp [Statement, encode, encRType]

theorem and (rd rs1 rs2 : Reg) : Statement (.and rd rs1 rs2) := by
  simp [Statement, encode, encRType]

theorem fence (pred succ : BitVec 4) : Statement (.fence pred succ) := by
  simp [Statement, encode, encFenceType]

theorem fenceI : Statement (.fenceI) := by
  rfl

theorem csrrw (rd : Reg) (csr : CsrNumber) (rs1 : Reg) : Statement (.csrrw rd csr rs1) := by
  simp [Statement, encode, encCsrType]

theorem csrrs (rd : Reg) (csr : CsrNumber) (rs1 : Reg) : Statement (.csrrs rd csr rs1) := by
  simp [Statement, encode, encCsrType]

theorem csrrc (rd : Reg) (csr : CsrNumber) (rs1 : Reg) : Statement (.csrrc rd csr rs1) := by
  simp [Statement, encode, encCsrType]

theorem csrrwi (rd : Reg) (csr : CsrNumber) (uimm : BitVec 5) : Statement (.csrrwi rd csr uimm) := by
  simp [Statement, encode, encCsrImmType]

theorem csrrsi (rd : Reg) (csr : CsrNumber) (uimm : BitVec 5) : Statement (.csrrsi rd csr uimm) := by
  simp [Statement, encode, encCsrImmType]

theorem csrrci (rd : Reg) (csr : CsrNumber) (uimm : BitVec 5) : Statement (.csrrci rd csr uimm) := by
  simp [Statement, encode, encCsrImmType]

theorem ecall : Statement (.ecall) := by
  rfl

theorem ebreak : Statement (.ebreak) := by
  rfl

theorem uret : Statement (.uret) := by
  rfl

theorem sret : Statement (.sret) := by
  rfl

theorem mret : Statement (.mret) := by
  rfl

theorem wfi : Statement (.wfi) := by
  rfl

theorem sfenceVma (rs1 rs2 : Reg) : Statement (.sfenceVma rs1 rs2) := by
  simp [Statement, encode, encSfenceType]

theorem lb (rd rs1 : Reg) (offset : BitVec 12) : Statement (.lb rd rs1 offset) := by
  simp [Statement, encode, encIType]

theorem lh (rd rs1 : Reg) (offset : BitVec 12) : Statement (.lh rd rs1 offset) := by
  simp [Statement, encode, encIType]

theorem lw (rd rs1 : Reg) (offset : BitVec 12) : Statement (.lw rd rs1 offset) := by
  simp [Statement, encode, encIType]

theorem lbu (rd rs1 : Reg) (offset : BitVec 12) : Statement (.lbu rd rs1 offset) := by
  simp [Statement, encode, encIType]

theorem lhu (rd rs1 : Reg) (offset : BitVec 12) : Statement (.lhu rd rs1 offset) := by
  simp [Statement, encode, encIType]

theorem sb (rs2 rs1 : Reg) (offset : BitVec 12) : Statement (.sb rs2 rs1 offset) := by
  simp [Statement, encode, encSType]

theorem sh (rs2 rs1 : Reg) (offset : BitVec 12) : Statement (.sh rs2 rs1 offset) := by
  simp [Statement, encode, encSType]

theorem sw (rs2 rs1 : Reg) (offset : BitVec 12) : Statement (.sw rs2 rs1 offset) := by
  simp [Statement, encode, encSType]

theorem jal (rd : Reg) (offset : BitVec 21) : Statement (.jal rd offset) := by
  simp [Statement, encode, encJType]

theorem jalr (rd rs1 : Reg) (offset : BitVec 12) : Statement (.jalr rd rs1 offset) := by
  simp [Statement, encode, encIType]

theorem beq (rs1 rs2 : Reg) (offset : BitVec 13) : Statement (.beq rs1 rs2 offset) := by
  simp [Statement, encode, encBType]

theorem bne (rs1 rs2 : Reg) (offset : BitVec 13) : Statement (.bne rs1 rs2 offset) := by
  simp [Statement, encode, encBType]

theorem blt (rs1 rs2 : Reg) (offset : BitVec 13) : Statement (.blt rs1 rs2 offset) := by
  simp [Statement, encode, encBType]

theorem bge (rs1 rs2 : Reg) (offset : BitVec 13) : Statement (.bge rs1 rs2 offset) := by
  simp [Statement, encode, encBType]

theorem bltu (rs1 rs2 : Reg) (offset : BitVec 13) : Statement (.bltu rs1 rs2 offset) := by
  simp [Statement, encode, encBType]

theorem bgeu (rs1 rs2 : Reg) (offset : BitVec 13) : Statement (.bgeu rs1 rs2 offset) := by
  simp [Statement, encode, encBType]

end Sys2Proof.Laws.EncodedLength
end

