-- ==== Sys2Proof/Tests/Slice0.lean ====
section
/-! SUPPORT. The model's own tests. The words and the values are the examples of the rules of `spec/40_word_arith.md` to `spec/48_control_transfer.md` and the vectors of `spec/95_test_vectors.md`, none computed by the model. The second half holds, for each statement with hypotheses, states and operands that meet them. -/

set_option Elab.async false

namespace Sys2Proof.Tests

open Sys2Proof.Machine

/-! ## Small states -/

/-- The memory of the programs of the spec: main memory from 0x1000 to 0x2FFF, all else vacant. -/
def programMap : List Region :=
  [{ base := 0x1000, size := 0x2000, read := true, write := true, execute := true, kind := .main }]

/-- The default configuration with that memory. -/
def testConfig (model : TrapModel) : Config where
  trapModel := model
  misaligned := .trap
  hasS := true
  hasU := true
  hasN := true
  wfiInU := false
  map := programMap
  resetPc := 0x1000#64
  platform := .steady
  vendorId := 1
  archId := 2
  impId := 3

/-- The hart at 0x1000 with two registers set. -/
def testState (model : TrapModel) (x6 x7 : Word) : State :=
  ((State.launch (testConfig model) [] (Vector.replicate 32 0) CsrFile.zero).writeX 6#5 x6).writeX 7#5 x7

/-- The bytes at 0x2000 to 0x2007 of the load examples of R250 to R254. -/
def loadBytes : Memory :=
  [(0x2000, 0xFF#8), (0x2001, 0x80#8), (0x2002, 0xF3#8), (0x2003, 0x44#8), (0x2004, 0x55#8), (0x2005, 0x66#8),
    (0x2006, 0x77#8), (0x2007, 0x88#8)]

/-- The bytes at 0x2000 to 0x2007 of the load examples of R150 and R151. -/
def doubleBytes : Memory :=
  [(0x2000, 0x11#8), (0x2001, 0x22#8), (0x2002, 0x33#8), (0x2003, 0x44#8), (0x2004, 0x55#8), (0x2005, 0x66#8),
    (0x2006, 0x77#8), (0x2007, 0x88#8)]

/-- A register and `pc` after an outcome. -/
def registerAndPc (r : Reg) : Outcome → Option (Word × Word)
  | .next t => some (t.readX r, t.pc)
  | _ => none

/-- The exception, the recorded value and the address of a terminal trap. -/
def trapOf : Outcome → Option (Exc × Word × Word)
  | .fault (.trapped record) => some (record.exc, record.info, record.pc)
  | _ => none

/-- A field of the state after an outcome. -/
def after {α : Type} (field : State → α) : Outcome → Option α
  | .next t => some (field t)
  | _ => none

/-- The outcome is a next state. -/
def goesOn : Outcome → Bool
  | .next _ => true
  | _ => false

/-- `n` bytes of memory from an address up. -/
def bytesFrom (a : Word) (n : Nat) (t : State) : List Byte := (List.range n).map (fun j => t.readByte (a + BitVec.ofNat 64 j))

/-! ## Operands the encodings do not have -/

theorem test_jal_odd_offset_refused : Instr.wellFormed (.jal 1#5 3#21) = false := by decide
theorem test_beq_odd_offset_refused : Instr.wellFormed (.beq 6#5 7#5 1#13) = false := by decide
theorem test_bne_odd_offset_refused : Instr.wellFormed (.bne 6#5 7#5 5#13) = false := by decide
theorem test_blt_odd_offset_refused : Instr.wellFormed (.blt 6#5 7#5 0x1FFF#13) = false := by decide
theorem test_bge_odd_offset_refused : Instr.wellFormed (.bge 6#5 7#5 7#13) = false := by decide
theorem test_bltu_odd_offset_refused : Instr.wellFormed (.bltu 6#5 7#5 9#13) = false := by decide
theorem test_bgeu_odd_offset_refused : Instr.wellFormed (.bgeu 6#5 7#5 11#13) = false := by decide

/-! ## Decoding: the words the rules of the spec write out, one at least for every instruction -/

theorem decode_addiw : decodeWord 0x0013029B#32 = .ok (.addiw 5#5 6#5 1#12) := by decide
theorem decode_slliw : decodeWord 0x01F3129B#32 = .ok (.slliw 5#5 6#5 31#5) := by decide
theorem decode_srliw : decodeWord 0x0043529B#32 = .ok (.srliw 5#5 6#5 4#5) := by decide
theorem decode_sraiw : decodeWord 0x41F3529B#32 = .ok (.sraiw 5#5 6#5 31#5) := by decide
theorem decode_addw : decodeWord 0x007302BB#32 = .ok (.addw 5#5 6#5 7#5) := by decide
theorem decode_subw : decodeWord 0x407302BB#32 = .ok (.subw 5#5 6#5 7#5) := by decide
theorem decode_sllw : decodeWord 0x007312BB#32 = .ok (.sllw 5#5 6#5 7#5) := by decide
theorem decode_srlw : decodeWord 0x007352BB#32 = .ok (.srlw 5#5 6#5 7#5) := by decide
theorem decode_sraw : decodeWord 0x407352BB#32 = .ok (.sraw 5#5 6#5 7#5) := by decide
theorem decode_lwu : decodeWord 0xFF836283#32 = .ok (.lwu 5#5 6#5 0xFF8#12) := by decide
theorem decode_ld : decodeWord 0xFF033283#32 = .ok (.ld 5#5 6#5 0xFF0#12) := by decide
theorem decode_sd : decodeWord 0xFE733C23#32 = .ok (.sd 7#5 6#5 0xFF8#12) := by decide
theorem decode_lui : decodeWord 0x123452B7#32 = .ok (.lui 5#5 0x12345#20) := by decide
theorem decode_auipc : decodeWord 0x80000297#32 = .ok (.auipc 5#5 0x80000#20) := by decide
theorem decode_addi : decodeWord 0x80030293#32 = .ok (.addi 5#5 6#5 0x800#12) := by decide
theorem decode_slti : decodeWord 0x00532293#32 = .ok (.slti 5#5 6#5 5#12) := by decide
theorem decode_sltiu : decodeWord 0xFFF33293#32 = .ok (.sltiu 5#5 6#5 0xFFF#12) := by decide
theorem decode_xori : decodeWord 0x0F034293#32 = .ok (.xori 5#5 6#5 0x0F0#12) := by decide
theorem decode_ori : decodeWord 0x70036293#32 = .ok (.ori 5#5 6#5 0x700#12) := by decide
theorem decode_andi : decodeWord 0x0FF37293#32 = .ok (.andi 5#5 6#5 0x0FF#12) := by decide
theorem decode_slli : decodeWord 0x03F31293#32 = .ok (.slli 5#5 6#5 63#6) := by decide
theorem decode_srli : decodeWord 0x02035293#32 = .ok (.srli 5#5 6#5 32#6) := by decide
theorem decode_srai : decodeWord 0x43F35293#32 = .ok (.srai 5#5 6#5 63#6) := by decide
theorem decode_add : decodeWord 0x007302B3#32 = .ok (.add 5#5 6#5 7#5) := by decide
theorem decode_sub : decodeWord 0x407302B3#32 = .ok (.sub 5#5 6#5 7#5) := by decide
theorem decode_sll : decodeWord 0x007312B3#32 = .ok (.sll 5#5 6#5 7#5) := by decide
theorem decode_slt : decodeWord 0x007322B3#32 = .ok (.slt 5#5 6#5 7#5) := by decide
theorem decode_sltu : decodeWord 0x007332B3#32 = .ok (.sltu 5#5 6#5 7#5) := by decide
theorem decode_xor : decodeWord 0x007342B3#32 = .ok (.xor 5#5 6#5 7#5) := by decide
theorem decode_srl : decodeWord 0x007352B3#32 = .ok (.srl 5#5 6#5 7#5) := by decide
theorem decode_sra : decodeWord 0x407352B3#32 = .ok (.sra 5#5 6#5 7#5) := by decide
theorem decode_or : decodeWord 0x007362B3#32 = .ok (.or 5#5 6#5 7#5) := by decide
theorem decode_and : decodeWord 0x007372B3#32 = .ok (.and 5#5 6#5 7#5) := by decide
theorem decode_fence : decodeWord 0x0120000F#32 = .ok (.fence 0b0001#4 0b0010#4) := by decide
theorem decode_fenceI : decodeWord 0x0000100F#32 = .ok (.fenceI) := by decide
theorem decode_csrrw : decodeWord 0x340312F3#32 = .ok (.csrrw 5#5 0x340#12 6#5) := by decide
theorem decode_csrrs : decodeWord 0xF14022F3#32 = .ok (.csrrs 5#5 0xF14#12 0#5) := by decide
theorem decode_csrrc : decodeWord 0x30033073#32 = .ok (.csrrc 0#5 0x300#12 6#5) := by decide
theorem decode_csrrwi : decodeWord 0x340FD2F3#32 = .ok (.csrrwi 5#5 0x340#12 31#5) := by decide
theorem decode_csrrsi : decodeWord 0x340462F3#32 = .ok (.csrrsi 5#5 0x340#12 8#5) := by decide
theorem decode_csrrci : decodeWord 0x3401F2F3#32 = .ok (.csrrci 5#5 0x340#12 3#5) := by decide
theorem decode_ecall : decodeWord 0x00000073#32 = .ok (.ecall) := by decide
theorem decode_ebreak : decodeWord 0x00100073#32 = .ok (.ebreak) := by decide
theorem decode_uret : decodeWord 0x00200073#32 = .ok (.uret) := by decide
theorem decode_sret : decodeWord 0x10200073#32 = .ok (.sret) := by decide
theorem decode_mret : decodeWord 0x30200073#32 = .ok (.mret) := by decide
theorem decode_wfi : decodeWord 0x10500073#32 = .ok (.wfi) := by decide
theorem decode_sfenceVma : decodeWord 0x12730073#32 = .ok (.sfenceVma 6#5 7#5) := by decide
theorem decode_lb : decodeWord 0xFF930283#32 = .ok (.lb 5#5 6#5 0xFF9#12) := by decide
theorem decode_lh : decodeWord 0x00231283#32 = .ok (.lh 5#5 6#5 2#12) := by decide
theorem decode_lw : decodeWord 0xFFC32303#32 = .ok (.lw 6#5 6#5 0xFFC#12) := by decide
theorem decode_lbu : decodeWord 0x00134283#32 = .ok (.lbu 5#5 6#5 1#12) := by decide
theorem decode_lhu : decodeWord 0x00635283#32 = .ok (.lhu 5#5 6#5 6#12) := by decide
theorem decode_sb : decodeWord 0xFE730FA3#32 = .ok (.sb 7#5 6#5 0xFFF#12) := by decide
theorem decode_sh : decodeWord 0x00731123#32 = .ok (.sh 7#5 6#5 2#12) := by decide
theorem decode_sw : decodeWord 0x80732023#32 = .ok (.sw 7#5 6#5 0x800#12) := by decide
theorem decode_jal : decodeWord 0xFF9FF0EF#32 = .ok (.jal 1#5 0x1FFFF8#21) := by decide
theorem decode_jal_far : decodeWord 0x001000EF#32 = .ok (.jal 1#5 2048#21) := by decide
theorem decode_jalr : decodeWord 0xFFC300E7#32 = .ok (.jalr 1#5 6#5 0xFFC#12) := by decide
theorem decode_beq : decodeWord 0xFE7308E3#32 = .ok (.beq 6#5 7#5 0x1FF0#13) := by decide
theorem decode_bne : decodeWord 0x007310E3#32 = .ok (.bne 6#5 7#5 0x800#13) := by decide
theorem decode_blt : decodeWord 0x00734863#32 = .ok (.blt 6#5 7#5 16#13) := by decide
theorem decode_bge : decodeWord 0x00735863#32 = .ok (.bge 6#5 7#5 16#13) := by decide
theorem decode_bltu : decodeWord 0x00736863#32 = .ok (.bltu 6#5 7#5 16#13) := by decide
theorem decode_bgeu : decodeWord 0x00737863#32 = .ok (.bgeu 6#5 7#5 16#13) := by decide

/-- R111, R112: a reserved word shift, a shift with `inst[26]` = 1, SFENCE.VMA with a nonzero `rd`, an absent major opcode
and the all-zero word are no instructions, each under its own name. -/
theorem decode_refuses_uncovered_words :
    decodeWord 0x0213129B#32 = .error (.reservedWordShift 0x0213129B#32) ∧
    decodeWord 0x04131293#32 = .error (.noMinorOpcode 0x04131293#32) ∧
    decodeWord 0x120002F3#32 = .error (.noMinorOpcode 0x120002F3#32) ∧
    decodeWord 0x0000002F#32 = .error (.noMajorOpcode 0x0000002F#32) ∧
    decodeWord 0x00000000#32 = .error (.notThirtyTwoBits 0x00000000#32) := by decide

/-! ## Each instruction once or twice, in the state the rule's example names -/

theorem test_addiw_wraps :
    registerAndPc 5#5 (exec (.addiw 5#5 6#5 1#12) (testState .terminal 0x7FFFFFFF#64 0#64)) =
      some (0xFFFFFFFF80000000#64, 0x1004#64) := by decide
theorem test_slliw :
    registerAndPc 5#5 (exec (.slliw 5#5 6#5 1#5) (testState .terminal 0x40000001#64 0#64)) =
      some (0xFFFFFFFF80000002#64, 0x1004#64) := by decide
theorem test_srliw :
    registerAndPc 5#5 (exec (.srliw 5#5 6#5 4#5) (testState .terminal 0xFFFFFFFF80000000#64 0#64)) =
      some (0x08000000#64, 0x1004#64) := by decide
theorem test_srliw_by_zero :
    registerAndPc 5#5 (exec (.srliw 5#5 6#5 0#5) (testState .terminal 0xFFFFFFFF80000000#64 0#64)) =
      some (0xFFFFFFFF80000000#64, 0x1004#64) := by decide
theorem test_sraiw :
    registerAndPc 5#5 (exec (.sraiw 5#5 6#5 4#5) (testState .terminal 0x80000000#64 0#64)) =
      some (0xFFFFFFFFF8000000#64, 0x1004#64) := by decide
theorem test_addw :
    registerAndPc 5#5 (exec (.addw 5#5 6#5 7#5) (testState .terminal 0x1FFFFFFFF#64 1#64)) =
      some (0#64, 0x1004#64) := by decide
theorem test_subw :
    registerAndPc 5#5 (exec (.subw 5#5 6#5 7#5) (testState .terminal 0x80000000#64 1#64)) =
      some (0x7FFFFFFF#64, 0x1004#64) := by decide
theorem test_sllw :
    registerAndPc 5#5 (exec (.sllw 5#5 6#5 7#5) (testState .terminal 1#64 0x3F#64)) =
      some (0xFFFFFFFF80000000#64, 0x1004#64) := by decide
theorem test_srlw :
    registerAndPc 5#5 (exec (.srlw 5#5 6#5 7#5) (testState .terminal 0xFFFFFFFF80000000#64 0x21#64)) =
      some (0x40000000#64, 0x1004#64) := by decide
theorem test_sraw :
    registerAndPc 5#5 (exec (.sraw 5#5 6#5 7#5) (testState .terminal 0x80000000#64 0x24#64)) =
      some (0xFFFFFFFFF8000000#64, 0x1004#64) := by decide
theorem test_lui :
    registerAndPc 5#5 (exec (.lui 5#5 0x80000#20) (testState .terminal 0#64 0#64)) =
      some (0xFFFFFFFF80000000#64, 0x1004#64) := by decide
theorem test_auipc :
    registerAndPc 5#5 (exec (.auipc 5#5 0xFFFFF#20) (testState .terminal 0#64 0#64)) =
      some (0#64, 0x1004#64) := by decide
theorem test_addi :
    registerAndPc 5#5 (exec (.addi 5#5 6#5 0x800#12) (testState .terminal 0#64 0#64)) =
      some (0xFFFFFFFFFFFFF800#64, 0x1004#64) := by decide
theorem test_slti :
    registerAndPc 5#5 (exec (.slti 5#5 6#5 0x800#12) (testState .terminal 0x8000000000000000#64 0#64)) =
      some (1#64, 0x1004#64) := by decide
theorem test_slti_not_less :
    registerAndPc 5#5 (exec (.slti 5#5 6#5 0xFFF#12) (testState .terminal 5#64 0#64)) =
      some (0#64, 0x1004#64) := by decide
theorem test_sltiu :
    registerAndPc 5#5 (exec (.sltiu 5#5 6#5 0xFFF#12) (testState .terminal 5#64 0#64)) =
      some (1#64, 0x1004#64) := by decide
theorem test_sltiu_not_less :
    registerAndPc 5#5 (exec (.sltiu 5#5 6#5 0xFFF#12) (testState .terminal 0xFFFFFFFFFFFFFFFF#64 0#64)) =
      some (0#64, 0x1004#64) := by decide
theorem test_xori :
    registerAndPc 5#5 (exec (.xori 5#5 6#5 0xFFF#12) (testState .terminal 0x00FF00FF00FF00FF#64 0#64)) =
      some (0xFF00FF00FF00FF00#64, 0x1004#64) := by decide
theorem test_ori :
    registerAndPc 5#5 (exec (.ori 5#5 6#5 0x700#12) (testState .terminal 0x00FF00FF00FF00FF#64 0#64)) =
      some (0x00FF00FF00FF07FF#64, 0x1004#64) := by decide
theorem test_andi :
    registerAndPc 5#5 (exec (.andi 5#5 6#5 0xFF0#12) (testState .terminal 0x123456789ABCDEF0#64 0#64)) =
      some (0x123456789ABCDEF0#64, 0x1004#64) := by decide
theorem test_slli :
    registerAndPc 5#5 (exec (.slli 5#5 6#5 32#6) (testState .terminal 0x00000000FFFFFFFF#64 0#64)) =
      some (0xFFFFFFFF00000000#64, 0x1004#64) := by decide
theorem test_srli :
    registerAndPc 5#5 (exec (.srli 5#5 6#5 32#6) (testState .terminal 0xFFFFFFFF00000000#64 0#64)) =
      some (0x00000000FFFFFFFF#64, 0x1004#64) := by decide
theorem test_srai :
    registerAndPc 5#5 (exec (.srai 5#5 6#5 32#6) (testState .terminal 0xFFFFFFFF00000000#64 0#64)) =
      some (0xFFFFFFFFFFFFFFFF#64, 0x1004#64) := by decide
theorem test_add :
    registerAndPc 5#5 (exec (.add 5#5 6#5 7#5) (testState .terminal 0x00000000FFFFFFFF#64 1#64)) =
      some (0x0000000100000000#64, 0x1004#64) := by decide
theorem test_add_to_its_source :
    registerAndPc 6#5 (exec (.add 6#5 6#5 6#5) (testState .terminal 3#64 0#64)) =
      some (6#64, 0x1004#64) := by decide
theorem test_sub :
    registerAndPc 5#5 (exec (.sub 5#5 6#5 7#5) (testState .terminal 0#64 1#64)) =
      some (0xFFFFFFFFFFFFFFFF#64, 0x1004#64) := by decide
theorem test_sll_by_32 :
    registerAndPc 5#5 (exec (.sll 5#5 6#5 7#5) (testState .terminal 1#64 32#64)) =
      some (0x0000000100000000#64, 0x1004#64) := by decide
theorem test_sll_by_64 :
    registerAndPc 5#5 (exec (.sll 5#5 6#5 7#5) (testState .terminal 1#64 64#64)) =
      some (1#64, 0x1004#64) := by decide
theorem test_slt :
    registerAndPc 5#5 (exec (.slt 5#5 6#5 7#5) (testState .terminal 0x8000000000000000#64 0x7FFFFFFFFFFFFFFF#64)) =
      some (1#64, 0x1004#64) := by decide
theorem test_sltu :
    registerAndPc 5#5 (exec (.sltu 5#5 6#5 7#5) (testState .terminal 0x8000000000000000#64 0x7FFFFFFFFFFFFFFF#64)) =
      some (0#64, 0x1004#64) := by decide
theorem test_xor :
    registerAndPc 5#5 (exec (.xor 5#5 6#5 7#5) (testState .terminal 0xFF00FF00FF00FF00#64 0x0FF00FF00FF00FF0#64)) =
      some (0xF0F0F0F0F0F0F0F0#64, 0x1004#64) := by decide
theorem test_srl :
    registerAndPc 5#5 (exec (.srl 5#5 6#5 7#5) (testState .terminal 0x8000000000000000#64 0x21#64)) =
      some (0x40000000#64, 0x1004#64) := by decide
theorem test_sra :
    registerAndPc 5#5 (exec (.sra 5#5 6#5 7#5) (testState .terminal 0x8000000000000000#64 0x21#64)) =
      some (0xFFFFFFFFC0000000#64, 0x1004#64) := by decide
theorem test_or :
    registerAndPc 5#5 (exec (.or 5#5 6#5 7#5) (testState .terminal 0xFF00FF00FF00FF00#64 0x0FF00FF00FF00FF0#64)) =
      some (0xFFF0FFF0FFF0FFF0#64, 0x1004#64) := by decide
theorem test_and :
    registerAndPc 5#5 (exec (.and 5#5 6#5 7#5) (testState .terminal 0xFF00FF00FF00FF00#64 0x0FF00FF00FF00FF0#64)) =
      some (0x0F000F000F000F00#64, 0x1004#64) := by decide
theorem test_write_to_x0_is_discarded :
    registerAndPc 0#5 (exec (.addi 0#5 6#5 1#12) (testState .terminal 5#64 0#64)) =
      some (0#64, 0x1004#64) := by decide
theorem test_fence :
    registerAndPc 5#5 (exec (.fence 0b1111#4 0b1111#4) (testState .terminal 0#64 0#64)) =
      some (0#64, 0x1004#64) := by decide
theorem test_jal :
    registerAndPc 1#5 (exec (.jal 1#5 0x1FFFF8#21) (testState .terminal 0#64 0#64)) =
      some (0x1004#64, 0xFF8#64) := by decide
theorem test_jalr :
    registerAndPc 5#5 (exec (.jalr 5#5 5#5 16#12) (testState .terminal 0#64 0#64)) =
      some (0x1004#64, 0x10#64) := by decide
theorem test_jalr_clears_bit_0 :
    registerAndPc 1#5 (exec (.jalr 1#5 6#5 0#12) (testState .terminal 0x2001#64 0#64)) =
      some (0x1004#64, 0x2000#64) := by decide
theorem test_beq_taken :
    registerAndPc 5#5 (exec (.beq 6#5 7#5 0x1FF0#13) (testState .terminal 5#64 5#64)) =
      some (0#64, 0xFF0#64) := by decide
theorem test_beq_not_taken :
    registerAndPc 5#5 (exec (.beq 6#5 7#5 4094#13) (testState .terminal 5#64 6#64)) =
      some (0#64, 0x1004#64) := by decide
theorem test_bne :
    registerAndPc 5#5 (exec (.bne 6#5 7#5 16#13) (testState .terminal 5#64 6#64)) =
      some (0#64, 0x1010#64) := by decide
theorem test_blt :
    registerAndPc 5#5 (exec (.blt 6#5 7#5 16#13) (testState .terminal 0xFFFFFFFFFFFFFFFF#64 0#64)) =
      some (0#64, 0x1010#64) := by decide
theorem test_bge :
    registerAndPc 5#5 (exec (.bge 6#5 7#5 16#13) (testState .terminal 0#64 0x8000000000000000#64)) =
      some (0#64, 0x1010#64) := by decide
theorem test_bltu :
    registerAndPc 5#5 (exec (.bltu 6#5 7#5 16#13) (testState .terminal 0#64 0xFFFFFFFFFFFFFFFF#64)) =
      some (0#64, 0x1010#64) := by decide
theorem test_bgeu :
    registerAndPc 5#5 (exec (.bgeu 6#5 7#5 16#13) (testState .terminal 0#64 1#64)) =
      some (0#64, 0x1004#64) := by decide
theorem test_jal_misaligned :
    trapOf (exec (.jal 1#5 2#21) (testState .terminal 0#64 0#64)) =
      some (.instructionAddressMisaligned, 0x1002#64, 0x1000#64) := by decide
theorem test_jalr_misaligned :
    trapOf (exec (.jalr 1#5 6#5 0#12) (testState .terminal 0x2003#64 0#64)) =
      some (.instructionAddressMisaligned, 0x2002#64, 0x1000#64) := by decide
theorem test_bne_misaligned :
    trapOf (exec (.bne 6#5 7#5 4094#13) (testState .terminal 5#64 6#64)) =
      some (.instructionAddressMisaligned, 0x1FFE#64, 0x1000#64) := by decide
theorem test_ecall :
    trapOf (exec (.ecall) (testState .terminal 0#64 0#64)) =
      some (.environmentCallFromMMode, 0#64, 0x1000#64) := by decide
theorem test_ebreak :
    trapOf (exec (.ebreak) (testState .terminal 0#64 0#64)) =
      some (.breakpoint, 0x1000#64, 0x1000#64) := by decide
theorem test_uret_terminal :
    trapOf (exec (.uret) (testState .terminal 0#64 0#64)) =
      some (.illegalInstruction, 0x00200073#64, 0x1000#64) := by decide
theorem test_sret_terminal :
    trapOf (exec (.sret) (testState .terminal 0#64 0#64)) =
      some (.illegalInstruction, 0x10200073#64, 0x1000#64) := by decide
theorem test_mret_terminal :
    trapOf (exec (.mret) (testState .terminal 0#64 0#64)) =
      some (.illegalInstruction, 0x30200073#64, 0x1000#64) := by decide
theorem test_csrrw_terminal :
    trapOf (exec (.csrrw 5#5 0x340#12 6#5) (testState .terminal 0#64 0#64)) =
      some (.illegalInstruction, 0x340312F3#64, 0x1000#64) := by decide
theorem test_lwu_misaligned :
    trapOf (exec (.lwu 5#5 6#5 2#12) (testState .terminal 0x2000#64 0#64)) =
      some (.loadAddressMisaligned, 0x2002#64, 0x1000#64) := by decide
theorem test_ld_misaligned :
    trapOf (exec (.ld 5#5 6#5 4#12) (testState .terminal 0x2000#64 0#64)) =
      some (.loadAddressMisaligned, 0x2004#64, 0x1000#64) := by decide
theorem test_sd_misaligned :
    trapOf (exec (.sd 7#5 6#5 1#12) (testState .terminal 0x2000#64 0#64)) =
      some (.storeAddressMisaligned, 0x2001#64, 0x1000#64) := by decide
theorem test_sd_vacant :
    trapOf (exec (.sd 0#5 6#5 0#12) (testState .terminal 0x3000#64 0#64)) =
      some (.storeAccessFault, 0x3000#64, 0x1000#64) := by decide
theorem test_lb_vacant :
    trapOf (exec (.lb 5#5 6#5 0#12) (testState .terminal 0x3000#64 0#64)) =
      some (.loadAccessFault, 0x3000#64, 0x1000#64) := by decide
theorem test_sh_misaligned :
    trapOf (exec (.sh 7#5 6#5 1#12) (testState .terminal 0x2000#64 0#64)) =
      some (.storeAddressMisaligned, 0x2001#64, 0x1000#64) := by decide
theorem test_sw_misaligned :
    trapOf (exec (.sw 7#5 6#5 6#12) (testState .terminal 0x2000#64 0#64)) =
      some (.storeAddressMisaligned, 0x2006#64, 0x1000#64) := by decide

/-! ### Loads and stores -/

theorem test_lwu :
    registerAndPc 5#5 (exec (.lwu 5#5 6#5 4#12) { testState .terminal 0x2000#64 0 with mem := doubleBytes }) =
      some (0x88776655#64, 0x1004#64) := by decide
theorem test_ld :
    registerAndPc 5#5 (exec (.ld 5#5 6#5 0#12) { testState .terminal 0x2000#64 0 with mem := doubleBytes }) =
      some (0x8877665544332211#64, 0x1004#64) := by decide
theorem test_lb :
    registerAndPc 5#5 (exec (.lb 5#5 6#5 0xFF9#12) { testState .terminal 0x2008#64 0 with mem := loadBytes }) =
      some (0xFFFFFFFFFFFFFF80#64, 0x1004#64) := by decide
theorem test_lh :
    registerAndPc 5#5 (exec (.lh 5#5 6#5 0#12) { testState .terminal 0x2000#64 0 with mem := loadBytes }) =
      some (0xFFFFFFFFFFFF80FF#64, 0x1004#64) := by decide
theorem test_lh_positive :
    registerAndPc 5#5 (exec (.lh 5#5 6#5 2#12) { testState .terminal 0x2000#64 0 with mem := loadBytes }) =
      some (0x44F3#64, 0x1004#64) := by decide
theorem test_lw :
    registerAndPc 5#5 (exec (.lw 5#5 6#5 4#12) { testState .terminal 0x2000#64 0 with mem := loadBytes }) =
      some (0xFFFFFFFF88776655#64, 0x1004#64) := by decide
theorem test_lw_to_its_base :
    registerAndPc 6#5 (exec (.lw 6#5 6#5 0xFFC#12) { testState .terminal 0x2004#64 0 with mem := loadBytes }) =
      some (0x44F380FF#64, 0x1004#64) := by decide
theorem test_lbu :
    registerAndPc 5#5 (exec (.lbu 5#5 6#5 1#12) { testState .terminal 0x2000#64 0 with mem := loadBytes }) =
      some (0x80#64, 0x1004#64) := by decide
theorem test_lhu :
    registerAndPc 5#5 (exec (.lhu 5#5 6#5 6#12) { testState .terminal 0x2000#64 0 with mem := loadBytes }) =
      some (0x8877#64, 0x1004#64) := by decide
theorem test_sd :
    after (bytesFrom 0x2000#64 8)
      (exec (.sd 7#5 6#5 0#12) { testState .terminal 0x2000#64 0x0102030405060708#64 with mem := loadBytes }) =
      some [0x08#8, 0x07#8, 0x06#8, 0x05#8, 0x04#8, 0x03#8, 0x02#8, 0x01#8] := by decide
theorem test_sb :
    after (bytesFrom 0x2002#64 3)
      (exec (.sb 7#5 6#5 3#12) { testState .terminal 0x2000#64 0x1122334455667788#64 with mem := loadBytes }) =
      some [0xF3#8, 0x88#8, 0x55#8] := by decide
theorem test_sh :
    after (bytesFrom 0x2001#64 4)
      (exec (.sh 7#5 6#5 2#12) { testState .terminal 0x2000#64 0x1122334455667788#64 with mem := loadBytes }) =
      some [0x80#8, 0x88#8, 0x77#8, 0x55#8] := by decide
theorem test_sw :
    after (bytesFrom 0x2000#64 5)
      (exec (.sw 7#5 6#5 0#12) { testState .terminal 0x2000#64 0x1122334455667788#64 with mem := loadBytes }) =
      some [0x88#8, 0x77#8, 0x66#8, 0x55#8, 0x55#8] := by decide

/-- R66, R201: a store puts its bytes into S; FENCE.I empties S. -/
theorem test_store_joins_the_set :
    after (fun t => (t.inStored 0x2003#64, t.inStored 0x2004#64)) (exec (.sw 7#5 6#5 0#12) (testState .terminal 0x2000#64 7#64)) =
      some (true, false) := by decide

theorem test_fenceI :
    after (fun t => (t.inStored 0x2000#64, t.pc))
      (exec .fenceI { testState .terminal 0 0 with stored := [(0x2000, none)] }) = some (false, 0x1004#64) := by decide

/-! ### CSR instructions, privileged, M-mode -/

/-- `mscratch` and the registers before a CSR example. -/
def csrState (mscratch x6 : Word) : State :=
  let s := testState .privileged x6 0
  { s with csr := { s.csr with mscratch := mscratch } }

/-- x5 and `mscratch` after an outcome. -/
def scratchAfter (o : Outcome) : Option (Word × Word) := after (fun t => (t.readX 5#5, t.csr.mscratch)) o

theorem test_csrrw :
    scratchAfter (exec (.csrrw 5#5 0x340#12 6#5) (csrState 0x1111#64 0x2222#64)) = some (0x1111#64, 0x2222#64) := by
  decide
theorem test_csrrs :
    scratchAfter (exec (.csrrs 5#5 0x340#12 6#5) (csrState 0x00F0#64 0x0F0F#64)) = some (0x00F0#64, 0x0FFF#64) := by
  decide
theorem test_csrrc :
    scratchAfter (exec (.csrrc 5#5 0x340#12 6#5) (csrState 0x0FFF#64 0x00F0#64)) = some (0x0FFF#64, 0x0F0F#64) := by
  decide
theorem test_csrrwi :
    scratchAfter (exec (.csrrwi 5#5 0x340#12 31#5) (csrState 0xABCD#64 0#64)) = some (0xABCD#64, 0x1F#64) := by decide
theorem test_csrrsi :
    scratchAfter (exec (.csrrsi 5#5 0x340#12 8#5) (csrState 3#64 0#64)) = some (3#64, 0xB#64) := by decide
theorem test_csrrci :
    scratchAfter (exec (.csrrci 5#5 0x340#12 3#5) (csrState 0xF#64 0#64)) = some (0xF#64, 0xC#64) := by decide

/-- R214: a write to the read-only `mhartid` is illegal whatever x6 holds, a read of it gives 0. -/
theorem test_csrrs_read_only :
    after (fun t => (t.csr.mcause, t.csr.mtval, t.pc)) (exec (.csrrs 5#5 0xF14#12 6#5) (csrState 0 0)) =
      some (2#64, 0xF14322F3#64, 0#64) ∧
    scratchAfter (exec (.csrrs 5#5 0xF14#12 0#5) (csrState 7 0)) = some (0#64, 7#64) := by decide

/-- Program P6, step 7: `mstatus` reads 0x0000000A00000000 after 0 is written to it. -/
theorem test_mstatus_reads_hardwired_fields :
    after (fun t => t.csrRead .mstatus) (exec (.csrrw 0#5 0x300#12 0#5) (csrState 0 0)) = some 0x0000000A00000000#64 := by
  decide

/-! ### System instructions and traps, the vectors T1 to T24 -/

/-- A privileged state in a mode at an address, with `mstatus` fields and CSRs from functions. -/
def modeState (priv : Mode) (pc : Word) (fields : Mstatus → Mstatus) (csrs : CsrFile → CsrFile) : State :=
  let s := testState .privileged 0 0
  let c := csrs s.csr
  { s with priv := priv, pc := pc, csr := { c with mstatus := fields c.mstatus } }

/-- Mode, address and `mstatus` after an outcome. -/
def modeAfter (o : Outcome) : Option (Mode × Word × Mstatus) := after (fun t => (t.priv, t.pc, t.csr.mstatus)) o

/-- T1. -/
theorem test_mret :
    modeAfter (exec .mret (modeState .m 0x1000 (fun f => { f with mpie := true }) (fun c => { c with mepc := 0x6000 }))) =
      some (.u, 0x6000#64, { Mstatus.zero with mie := true, mpie := true }) := by decide

/-- T2. -/
theorem test_mret_to_machine :
    modeAfter (exec .mret (modeState .m 0x1000 (fun f => { f with mie := true, mpp := .m }) (fun c => { c with mepc := 0x6000 }))) =
      some (.m, 0x6000#64, { Mstatus.zero with mpie := true }) := by decide

/-- T4. -/
theorem test_sret :
    modeAfter (exec .sret (modeState .s 0x1000 (fun f => { f with sie := true }) (fun c => { c with sepc := 0x5000 }))) =
      some (.u, 0x5000#64, { Mstatus.zero with spie := true }) := by decide

/-- T5. -/
theorem test_sret_with_tsr :
    after (fun t => (t.priv, t.csr.mcause, t.csr.mtval))
      (exec .sret (modeState .s 0x1000 (fun f => { f with tsr := true }) id)) = some (.m, 2#64, 0x10200073#64) := by
  decide

/-- T8. -/
theorem test_uret :
    modeAfter (exec .uret (modeState .u 0x1000 (fun f => { f with upie := true }) (fun c => { c with uepc := 0x4000 }))) =
      some (.u, 0x4000#64, { Mstatus.zero with uie := true, upie := true }) := by decide

/-- T10. -/
theorem test_ecall_from_user :
    after (fun t => (t.priv, t.pc, t.csr.mepc, t.csr.mcause, t.csr.mtval, t.csr.mstatus))
      (exec .ecall (modeState .u 0x4000 (fun f => { f with mie := true }) (fun c => { c with mtvec := 0x8000 }))) =
      some (.m, 0x8000#64, 0x4000#64, 8#64, 0#64, { Mstatus.zero with mpie := true }) := by decide

/-- The trap of EBREAK records its own address (R231). -/
theorem test_ebreak_privileged :
    after (fun t => (t.csr.mepc, t.csr.mcause, t.csr.mtval)) (exec .ebreak (modeState .m 0x1000 id id)) =
      some (0x1000#64, 3#64, 0x1000#64) := by decide

/-- T11: a delegated exception goes to the base of a vectored `stvec`. -/
theorem test_illegal_word_in_supervisor :
    after (fun t => (t.priv, t.pc, t.csr.sepc, t.csr.scause, t.csr.stval, t.csr.mstatus))
      (step { (modeState .s 0x2000 (fun f => { f with sie := true })
        (fun c => { c with medeleg := 4, stvec := 0x9001 })).loadAtPc 0xFFFFFFFF#32 with draws := 0 }) =
      some (.s, 0x9000#64, 0x2000#64, 2#64, 0xFFFFFFFF#64, { Mstatus.zero with spie := true, spp := true }) := by decide

/-- T13. -/
theorem test_lh_misaligned_traps :
    after (fun t => (t.pc, t.csr.mepc, t.csr.mcause, t.csr.mtval, t.csr.mstatus.mpp))
      (exec (.lh 5#5 6#5 0#12) ((modeState .m 0x1000 id (fun c => { c with mtvec := 0x8000 })).writeX 6#5 0x2001)) =
      some (0x8000#64, 0x1000#64, 4#64, 0x2001#64, .m) := by decide

/-- A state at a boundary with enabled and pending interrupts. -/
def boundaryState (priv : Mode) (fields : Mstatus → Mstatus) (tvec mie mip mideleg : Word) : State :=
  modeState priv 0x1000 fields
    (fun c => { c with mtvec := tvec, stvec := tvec, mie := mie, mip := mip, mideleg := mideleg })

/-- Mode, address, cause registers after an outcome. -/
def causeAfter (o : Outcome) : Option (Mode × Word × Word × Word) :=
  after (fun t => (t.priv, t.pc, t.csr.mcause, t.csr.scause)) o

/-- T14. -/
theorem test_vectored_timer_interrupt :
    causeAfter (step (boundaryState .m (fun f => { f with mie := true }) 0x8001 0x80 0x80 0)) =
      some (.m, 0x801C#64, 0x8000000000000007#64, 0#64) := by decide

/-- T17. -/
theorem test_interrupt_from_below :
    causeAfter (step (boundaryState .u id 0x8001 0x80 0x80 0)) = some (.m, 0x801C#64, 0x8000000000000007#64, 0#64) := by
  decide

/-- T18. -/
theorem test_external_interrupt_wins :
    causeAfter (step (boundaryState .m (fun f => { f with mie := true }) 0x8001 0x880 0x880 0)) =
      some (.m, 0x802C#64, 0x800000000000000B#64, 0#64) := by decide

/-- T19: handled below the current mode, not taken; the instruction executes. -/
theorem test_interrupt_below_is_not_taken :
    causeAfter (step ((boundaryState .m (fun f => { f with mie := true, sie := true }) 0x8001 2 2 2).loadAtPc 0x00000013#32)) =
      some (.m, 0x1004#64, 0#64, 0#64) := by decide

/-- T20. -/
theorem test_supervisor_interrupt :
    causeAfter (step (boundaryState .s (fun f => { f with sie := true }) 0x9001 2 2 2)) =
      some (.s, 0x9004#64, 0#64, 0x8000000000000001#64) := by decide

/-- T21: with the interrupt pending WFI completes, and it is not taken with MIE = 0. -/
theorem test_wfi_completes :
    causeAfter (exec .wfi (boundaryState .m id 0x8001 0x80 0x80 0)) = some (.m, 0x1004#64, 0#64, 0#64) := by decide

/-- R235: WFI in U-mode without `WFI_IN_U`. -/
theorem test_wfi_in_user :
    after (fun t => (t.csr.mcause, t.csr.mtval)) (exec .wfi (modeState .u 0x1000 id id)) = some (2#64, 0x10500073#64) := by
  decide

/-- R236. -/
theorem test_sfenceVma : after (fun t => t.pc) (exec (.sfenceVma 6#5 7#5) (modeState .m 0x1000 id id)) = some 0x1004#64 := by
  decide

/-- T23. -/
theorem test_sfenceVma_with_tvm :
    after (fun t => (t.csr.mcause, t.csr.mtval)) (exec (.sfenceVma 0#5 0#5) (modeState .s 0x1000 (fun f => { f with tvm := true }) id)) =
      some (2#64, 0x12000073#64) := by decide

/-! ### The step and the host's interface -/

/-- A word placed at reset runs as the first instruction: program P1's second word. -/
theorem test_first_instruction_runs :
    registerAndPc 6#5 (step (State.reset.withFetchWord 32 0x00A00313)) = some (10#64, 0x1004#64) := by decide

theorem test_decodeTableWord : decodeTableWord 32 0x00A00313 = some (.addi 6#5 0#5 10#12) := by decide

/-! ### Reset of other configurations, hardwired fields, the end of a run -/

/-- The configuration with some of the modes. -/
def modesConfig (hasS hasU : Bool) : Config := { testConfig .privileged with hasS := hasS, hasU := hasU }

/-- `mstatus` as it reads after a launch from a CSR file and after a write. -/
def launchedMstatus (cfg : Config) (csr : CsrFile) (v : Word) : Word × Word :=
  let s := State.launch cfg [] (Vector.replicate 32 0) csr
  (s.csrRead .mstatus, (s.csrWrite .mstatus v).csrRead .mstatus)

/-- R331: MPP is hardwired 3 with `MODES` = {M}, MIE and MPIE are the writable bits. -/
theorem test_machine_only_mstatus :
    launchedMstatus (modesConfig false false) CsrFile.zero 0#64 = (0x1800#64, 0x1800#64) ∧
    launchedMstatus (modesConfig false false) CsrFile.zero 0xFFFFFFFFFFFFFFFF#64 = (0x1800#64, 0x1888#64) := by decide

/-- R323: with U absent and S present MPP is M and TW and MPRV are 0 whatever is written. -/
theorem test_without_user_mode :
    launchedMstatus (modesConfig true false) CsrFile.zero 0x220800#64 = (0x800001800#64, 0x800001800#64) := by decide

/-- R360: the bits no write can set are 0 after reset whatever is given for them. -/
theorem test_launch_masks_fixed_bits :
    (let s := State.launch (modesConfig true true) [] (Vector.replicate 32 0)
      { CsrFile.zero with mepc := 0x1003, medeleg := 0x800, mie := 0xFFFF, mtvec := 0x8002 }
     (s.csr.mepc, s.csr.medeleg, s.csr.mie, s.csr.mtvec)) = (0x1000#64, 0#64, 0xBBB#64, 0x8000#64) := by decide

/-- R234: with `MODES` = {M} the first MRET stays in M-mode. -/
theorem test_mret_machine_only :
    modeAfter (exec .mret (State.launch (modesConfig false false) [] (Vector.replicate 32 0) CsrFile.zero)) =
      some (.m, 0#64, { Mstatus.zero with mpie := true, mpp := .m }) := by decide

/-- R363: a terminal run ends at its first raise with the record and the state before it, a privileged one under the
premise of log 29 just after the trap of an ECALL in M-mode is entered, or at an address. -/
theorem test_end_of_run :
    (match runUntil .machineEcall 5 ((testState .terminal 0 0).loadAtPc 0x00000073#32) with
      | .trapped record before => some (record.exc, record.pc, before.pc)
      | _ => none) = some (.environmentCallFromMMode, 0x1000#64, 0x1000#64) ∧
    (match runUntil .machineEcall 5 ((modeState .m 0x1000 id (fun c => { c with mtvec := 0x8000 })).loadAtPc 0x00000073#32) with
      | .ended t => some (t.pc, t.csr.mcause)
      | _ => none) = some (0x8000#64, 11#64) ∧
    (match runUntil (.atAddress 0x1004) 5 ((modeState .m 0x1000 id id).loadAtPc 0x00000013#32) with
      | .ended t => some t.pc
      | _ => none) = some 0x1004#64 := by decide

/-- R65: a fetch past the end of memory. -/
theorem test_fetch_vacant :
    trapOf (step { testState .terminal 0 0 with pc := 0x3000 }) = some (.instructionAccessFault, 0x3000#64, 0x3000#64) := by
  decide

/-- R111: the all-zero word. -/
theorem test_illegal_word :
    trapOf (step ((testState .terminal 0 0).loadAtPc 0#32)) = some (.illegalInstruction, 0#64, 0x1000#64) := by decide


/-! ## Witnesses: states and operands that meet the hypotheses of the statements -/

/-- The state of an outcome, or a default. -/
def stateOf (d : State) : Outcome → State
  | .next t => t
  | _ => d

theorem next_stateOf {d : State} {o : Outcome} (h : goesOn o = true) : o = .next (stateOf d o) := by
  cases o <;> first | rfl | cases h

/-- The byte exists as main memory with the permission, as a Bool. -/
def mainByte (s : State) (k : Access) (a : Word) : Bool :=
  (regionAt s.cfg a).any (fun r => permitted r k && r.kind == .main)

theorem mainByte_of {s : State} {k : Access} {a : Word} (h : mainByte s k a = true) : MainByte s k a := by
  unfold mainByte at h
  cases hr : regionAt s.cfg a with
  | none => simp [hr] at h
  | some r => exact ⟨r, hr, by simpa [hr] using h⟩

theorem vacantByte_of {s : State} {k : Access} {a : Word} (h : vacantFor s.cfg k a = true) : VacantByte s k a := by
  intro r hr
  simpa [vacantFor, hr] using h

theorem not_vacantByte_of {s : State} {k : Access} {a : Word} (h : vacantFor s.cfg k a = false) : ¬ VacantByte s k a := by
  intro hv
  unfold vacantFor at h
  cases hr : regionAt s.cfg a with
  | none => simp [hr] at h
  | some r => simp [hr, hv r hr] at h

theorem deviceByte_of {s : State} {a : Word} (h : isDevice s.cfg a = true) : DeviceByte s a := by
  unfold isDevice at h
  cases hr : regionAt s.cfg a with
  | none => simp [hr] at h
  | some r => exact ⟨r, hr, by simpa [hr] using h⟩

theorem accessGranted_of {s : State} {k : Access} {a : Word} {n : Nat} (ha : a.toNat % n = 0)
    (hm : ∀ j, j < n → mainByte s k (byteAddr a j) = true) : AccessGranted s k a n :=
  ⟨.inr ha, fun j hj => mainByte_of (hm j hj)⟩

theorem noneTakeable_terminal {s : State} (h : s.cfg.trapModel = .terminal) : NoneTakeable s := by
  intro c y ht
  cases ht.1.symm.trans h

theorem readyToFetch_of {s : State} (ht : s.cfg.trapModel = .terminal) (hs : s.stalled = false)
    (hm : ∀ j, j < 4 → mainByte s .execute (byteAddr s.pc j) = true)
    (hf : ∀ j, j < 4 → s.inStored (byteAddr s.pc j) = false) : ReadyToFetch s :=
  ⟨hs, noneTakeable_terminal ht, fun j hj => mainByte_of (hm j hj), hf⟩

/-- A terminal hart about to fetch a word. -/
def fetching (word : InstWord) : State := (testState .terminal 0x2000 0x1122334455667788).loadAtPc word

/-- The memory map of `programMap` with the last byte cut off, and a device after it. -/
def deviceMap : List Region :=
  [{ base := 0x1000, size := 0x1FFF, read := true, write := true, execute := true, kind := .main },
    { base := 0x4000, size := 0x1000, read := true, write := true, execute := true, kind := .device }]

/-- A terminal hart with that map. -/
def deviceState (pc x6 : Word) : State :=
  let s := testState .terminal x6 0
  { s with pc := pc, cfg := { s.cfg with map := deviceMap } }

/-! ### Encoding -/

theorem witness_DecodeInvertsEncode : Instr.wellFormed (.jal 31#5 0x1FFFFE#21) = true := by decide

theorem witness_EncodeInvertsDecode : decodeWord 0xFF9FF0EF#32 = .ok (.jal 1#5 0x1FFFF8#21) := by decide

theorem witness_OneRowMatchesAWord :
    (∃ row ∈ opcodeTable, row.accepts 0xFF9FF0EF#32 = true) ∧ ∀ row ∈ opcodeTable, row.accepts 0#32 = false := by decide

theorem witness_UnmatchedWordIsIllegal :
    ReadyToFetch (fetching 0#32).samplePlatform ∧
    (∀ row ∈ opcodeTable, row.accepts (wordAtPc (fetching 0#32).samplePlatform) = false) ∧
    (fetching 0#32).cfg.trapModel = .terminal :=
  ⟨readyToFetch_of (by decide) (by decide) (by decide) (by decide), by decide, by decide⟩

theorem witness_ListedIllegal :
    ListedIllegal 0x00000000#32 ∧ ListedIllegal 0xFFFFFFFF#32 ∧ ListedIllegal 0x0000002F#32 ∧
    ListedIllegal 0x00007003#32 ∧ ListedIllegal 0x02000033#32 ∧ ListedIllegal 0x4000103B#32 ∧
    ListedIllegal 0x04131293#32 ∧ ListedIllegal 0x44435293#32 ∧ ListedIllegal 0x0213129B#32 ∧
    ListedIllegal 0x4013129B#32 ∧ ListedIllegal 0x8043529B#32 ∧ ListedIllegal 0x8330000F#32 ∧
    ListedIllegal 0x0010100F#32 ∧ ListedIllegal 0x120002F3#32 :=
  ⟨.length (by decide), .allOnes (by decide), .major (by decide), .minor 0x03#7 7#3 (by decide) (by decide) (by decide),
    .registerForm (by decide) (by decide) (by decide), .wordRegisterForm (by decide) (by decide) (by decide),
    .shiftLeft (by decide) (by decide) (by decide), .shiftRight (by decide) (by decide) (by decide) (by decide),
    .wordShiftReserved 1#3 (by decide) (by decide) (by decide) (by decide),
    .wordShiftLeft (by decide) (by decide) (by decide), .wordShiftRight (by decide) (by decide) (by decide) (by decide),
    .fence (by decide) (by decide) (by decide), .fenceI (by decide) (by decide) (by decide),
    .system (by decide) (by decide) (by decide) (by decide)⟩

/-! ### The step -/

theorem witness_StepRunsDecodedInstruction :
    ReadyToFetch (fetching 0x00A00313#32) ∧ ReadyToFetch (fetching 0x00A00313#32).samplePlatform ∧
    (fetching 0x00A00313#32).cfg.platform = .steady ∧
    decodeWord (wordAtPc (fetching 0x00A00313#32)) = .ok (.addi 6#5 0#5 10#12) :=
  ⟨readyToFetch_of (by decide) (by decide) (by decide) (by decide),
    readyToFetch_of (by decide) (by decide) (by decide) (by decide), by decide, by decide⟩

/-- The hart of `fetching` with the byte at `pc` in the set S, having held before the content it has now. -/
def fetchingStored (word : InstWord) : State :=
  { fetching word with stored := [(0x1000, some (byteOfWord word 0))] }

theorem fetchingStored_byte (word : InstWord) (h : (fetchingStored word).readByte 0x1000#64 = byteOfWord word 0) :
    (fetchingStored word).fetchByte (byteAddr (fetchingStored word).pc 0) = byteOfWord word 0 := by
  have hs : (fetchingStored word).inStored 0x1000#64 = true := rfl
  have hh : (fetchingStored word).heldContents 0x1000#64 = [(fetchingStored word).readByte 0x1000#64, byteOfWord word 0] := rfl
  show (fetchingStored word).fetchByte 0x1000#64 = byteOfWord word 0
  simp only [State.fetchByte, hs, if_true, hh, h]
  generalize Config.freeStaleIndex _ _ % _ = index
  rcases index with _ | _ | index <;> rfl

/-- A byte at `pc` in S: a word that is an instruction and one that is none. -/
theorem witness_StepRunsDecodedInstruction_stored :
    (∀ word, (fetchingStored word).samplePlatform.stalled = false ∧ NoneTakeable (fetchingStored word).samplePlatform ∧
      FetchGranted (fetchingStored word).samplePlatform ∧ ¬ FetchSynchronised (fetchingStored word).samplePlatform) ∧
    decodeWord (fetchedWord (fetchingStored 0x00A00313#32).samplePlatform) = .ok (.addi 6#5 0#5 10#12) ∧
    ∀ row ∈ opcodeTable, row.accepts (fetchedWord (fetchingStored 0#32).samplePlatform) = false := by
  refine ⟨fun word => ⟨rfl, noneTakeable_terminal rfl, fun j hj => mainByte_of ?_, fun h => ?_⟩, ?_, ?_⟩
  · exact (by decide : ∀ j, j < 4 → mainByte (fetchingStored 0#32) .execute (byteAddr 0x1000#64 j) = true) j hj
  · have := h 0 (by decide)
    cases this.symm.trans (rfl : (fetchingStored word).inStored 0x1000#64 = true)
  · show decodeWord (fetchedWord (fetchingStored 0x00A00313#32)) = _
    rw [fetchedWord, fetchingStored_byte _ (by decide)]
    decide
  · show ∀ row ∈ opcodeTable, row.accepts (fetchedWord (fetchingStored 0#32)) = false
    rw [fetchedWord, fetchingStored_byte _ (by decide)]
    decide

/-- The first byte vacant, and only the fourth. -/
theorem witness_VacantFetchRaises :
    (∀ pc ∈ [0x3000#64, 0x2FFC#64], (deviceState pc 0).samplePlatform.stalled = false ∧
      NoneTakeable (deviceState pc 0).samplePlatform) ∧
    VacantByte (deviceState 0x3000 0).samplePlatform .execute (byteAddr 0x3000#64 0) ∧
    VacantByte (deviceState 0x2FFC 0).samplePlatform .execute (byteAddr 0x2FFC#64 3) ∧
    ¬ VacantByte (deviceState 0x2FFC 0).samplePlatform .execute (byteAddr 0x2FFC#64 2) :=
  ⟨fun pc _ => ⟨rfl, noneTakeable_terminal rfl⟩, vacantByte_of (by decide), vacantByte_of (by decide),
    not_vacantByte_of (by decide)⟩

theorem witness_DeviceAccessIsRefused :
    (deviceState 0x4000 0).samplePlatform.stalled = false ∧ NoneTakeable (deviceState 0x4000 0).samplePlatform ∧
    (∀ j, j < 4 → ¬ VacantByte (deviceState 0x4000 0).samplePlatform .execute (byteAddr 0x4000#64 j)) ∧
    DeviceByte (deviceState 0x4000 0).samplePlatform (byteAddr 0x4000#64 3) ∧
    (∀ x ∈ [(Instr.ld 5#5 6#5 0#12, Access.read), (.sd 7#5 6#5 0#12, .write)], dataAccess x.1 = some (x.2, 8, 6#5, 0#12)) ∧
    effectiveAddress ((deviceState 0x1000 0x4000).readX 6#5) 0#12 = 0x4000#64 ∧
    AlignmentPasses (deviceState 0x1000 0x4000) 0x4000#64 8 ∧
    (∀ k ∈ [Access.read, .write], ∀ j, j < 8 → ¬ VacantByte (deviceState 0x1000 0x4000) k (byteAddr 0x4000#64 j)) ∧
    DeviceByte (deviceState 0x1000 0x4000) (byteAddr 0x4000#64 7) :=
  ⟨by decide, noneTakeable_terminal (by decide),
    fun j hj => not_vacantByte_of ((by decide : ∀ j, j < 4 → vacantFor (deviceState 0x4000 0).samplePlatform.cfg .execute
      (byteAddr 0x4000#64 j) = false) j hj),
    deviceByte_of (by decide), by decide, by decide, .inr (by decide),
    fun k hk j hj => not_vacantByte_of ((by decide : ∀ k ∈ [Access.read, .write], ∀ j, j < 8 →
      vacantFor (deviceState 0x1000 0x4000).cfg k (byteAddr 0x4000#64 j) = false) k hk j hj),
    deviceByte_of (by decide)⟩

theorem witness_FetchedByteIsACandidate :
    { testState .terminal 0 0 with stored := [(0x2000, none)] }.inStored 0x2000#64 = true ∧
    { testState .terminal 0 0 with stored := [(0x2000, none)] }.inStored 0x2001#64 = false := by decide

theorem witness_PlatformDrivesThreeBits :
    (testState .privileged 0 0).cfg.platform = .steady ∧ (testState .terminal 0 0).cfg.trapModel = .terminal ∧
    (2 ≠ 3 ∧ 2 ≠ 7 ∧ 2 ≠ 11) ∧
    (let s : State := { testState .privileged 0 0 with cfg := { testConfig .privileged with platform := .drawn } }
     s.cfg.platform = .drawn ∧ s.cfg.trapModel = .privileged) := by decide

theorem witness_StalledHartContinuesWfi :
    { testState .terminal 0 0 with stalled := true }.samplePlatform.stalled = true := by decide

theorem witness_LoadedWordRunsNext :
    (testState .terminal 0 0).cfg.platform = .steady ∧ NoneTakeable (testState .terminal 0 0) ∧
    FetchGranted (testState .terminal 0 0) ∧ decodeWord 0x00A00313#32 = .ok (.addi 6#5 0#5 10#12) :=
  ⟨by decide, noneTakeable_terminal (by decide),
    fun j hj => mainByte_of ((by decide : ∀ j, j < 4 → mainByte (testState .terminal 0 0) .execute
      (byteAddr (testState .terminal 0 0).pc j) = true) j hj), by decide⟩

/-! ### Fences, loads and stores -/

theorem witness_SfenceVmaChecksPrivilege :
    ((modeState .m 0x1000 id id).cfg.hasS = true ∧ (modeState .m 0x1000 id id).priv ≠ .u ∧
      ¬ ((modeState .m 0x1000 id id).cfg.trapModel = .privileged ∧ (modeState .m 0x1000 id id).priv = .s ∧
        (modeState .m 0x1000 id id).csr.mstatus.tvm = true)) ∧
    ((modeState .s 0x1000 id id).priv ≠ .u ∧ (modeState .s 0x1000 id id).csr.mstatus.tvm ≠ true) ∧
    (modeState .u 0x1000 id id).priv = .u ∧
    ((modeState .s 0x1000 (fun f => { f with tvm := true }) id).cfg.trapModel = .privileged ∧
      (modeState .s 0x1000 (fun f => { f with tvm := true }) id).priv = .s ∧
      (modeState .s 0x1000 (fun f => { f with tvm := true }) id).csr.mstatus.tvm = true) ∧
    ({ modeState .m 0x1000 id id with cfg := { testConfig .privileged with hasS := false } } : State).cfg.hasS = false := by
  decide

/-- For `LoadsFollowTheirRules` and `StoresFollowTheirRules`: the last byte, half, word and doubleword of memory; the address one past it; one inside a doubleword; and, where
misaligned accesses are supported, a doubleword of which only the last byte is vacant. -/
theorem witness_LoadsAndStores :
    (∀ k ∈ [Access.read, .write], ∀ x ∈ [(0x2FFF, 1), (0x2FFE, 2), (0x2FFC, 4), (0x2FF8, 8)],
      AccessGranted (testState .terminal (BitVec.ofNat 64 x.1) 7)
        k (effectiveAddress ((testState .terminal (BitVec.ofNat 64 x.1) 7).readX 6#5) 0#12) x.2) ∧
    ((testState .terminal 0x2001 7).cfg.misaligned = .trap ∧
      ∀ n ∈ [2, 4, 8], (effectiveAddress ((testState .terminal 0x2001 7).readX 6#5) 0#12).toNat % n ≠ 0) ∧
    (∀ n ∈ [1, 2, 4, 8], AlignmentPasses (testState .terminal 0x3000 7) 0x3000#64 n) ∧
    (∀ k ∈ [Access.read, .write], VacantByte (testState .terminal 0x3000 7) k (byteAddr 0x3000#64 0)) ∧
    ({ testState .terminal 0x2FF9 7 with cfg := { testConfig .terminal with misaligned := .support } } : State).cfg.misaligned =
      .support ∧
    VacantByte { testState .terminal 0x2FF9 7 with cfg := { testConfig .terminal with misaligned := .support } } .read
      (byteAddr 0x2FF9#64 7) := by
  refine ⟨fun k hk x hx => ?_, by decide, fun n hn => .inr ?_, fun k hk => vacantByte_of ?_, by decide,
    vacantByte_of (by decide)⟩
  · simp only [List.mem_cons, List.not_mem_nil, or_false] at hk hx
    obtain rfl | rfl := hk <;> obtain rfl | rfl | rfl | rfl := hx <;> exact accessGranted_of (by decide) (by decide)
  · revert n
    decide
  · revert k
    decide

/-- The state after the store of the witness below. -/
def afterStore : State := stateOf (testState .terminal 0 0) (exec (.sd 7#5 6#5 0#12) (testState .terminal 0x2000 9))

theorem witness_NarrowLoadsSeeAWideStore :
    AccessGranted (testState .terminal 0x2000 9) .write
      (effectiveAddress ((testState .terminal 0x2000 9).readX 6#5) 0#12) 8 ∧
    exec (.sd 7#5 6#5 0#12) (testState .terminal 0x2000 9) = .next afterStore ∧
    (effectiveAddress (afterStore.readX 6#5) 7#12 = byteAddr 0x2000#64 7 ∧
      AccessGranted afterStore .read (effectiveAddress (afterStore.readX 6#5) 7#12) 1) ∧
    (effectiveAddress (afterStore.readX 6#5) 6#12 = byteAddr 0x2000#64 (2 * 3) ∧
      AccessGranted afterStore .read (effectiveAddress (afterStore.readX 6#5) 6#12) 2) ∧
    (effectiveAddress (afterStore.readX 6#5) 4#12 = byteAddr 0x2000#64 (4 * 1) ∧
      AccessGranted afterStore .read (effectiveAddress (afterStore.readX 6#5) 4#12) 4) :=
  ⟨accessGranted_of (by decide) (by decide), next_stateOf (by decide),
    ⟨by decide, accessGranted_of (by decide) (by decide)⟩, ⟨by decide, accessGranted_of (by decide) (by decide)⟩,
    ⟨by decide, accessGranted_of (by decide) (by decide)⟩⟩

/-! ### Control transfer -/

theorem witness_JumpsFollowTheirRules :
    (0x1FFFF8#21).getLsbD 0 = false ∧
    (relativeTarget (testState .terminal 0 0) 0x1FFFF8#21).toNat % 4 = 0 ∧
    (relativeTarget (testState .terminal 0 0) 2#21).toNat % 4 ≠ 0 ∧
    (∀ x ∈ [(0x2000, 0), (0x2001, 0), (0x2002, 2), (0x2003, 2)],
      (BitVec.ofNat 64 ((wrap64 (((testState .terminal (BitVec.ofNat 64 x.1) 0).readX 6#5).toNat + (0#12).toInt)).toNat / 2 * 2)).toNat
        % 4 = x.2) ∧
    ((0x00001067#32).extractLsb' 0 7 = 0b1100111#7 ∧ (0x00001067#32).extractLsb' 12 3 ≠ 0b000#3) := by
  decide +kernel

theorem witness_BranchesFollowTheirRules :
    (16#13).getLsbD 0 = false ∧
    (relativeTarget (testState .terminal 0 0) 16#13).toNat % 4 = 0 ∧
    (relativeTarget (testState .terminal 0 0) 4094#13).toNat % 4 ≠ 0 ∧
    (let s := testState .terminal 5 5
     s.readX 6#5 = s.readX 7#5 ∧ ¬ (s.readX 6#5 ≠ s.readX 7#5) ∧ ¬ ((s.readX 6#5).toInt < (s.readX 7#5).toInt) ∧
      (s.readX 7#5).toInt ≤ (s.readX 6#5).toInt ∧ ¬ ((s.readX 6#5).toNat < (s.readX 7#5).toNat) ∧
      (s.readX 7#5).toNat ≤ (s.readX 6#5).toNat) ∧
    (let s := testState .terminal 5 6
     ¬ (s.readX 6#5 = s.readX 7#5) ∧ s.readX 6#5 ≠ s.readX 7#5 ∧ (s.readX 6#5).toInt < (s.readX 7#5).toInt ∧
      ¬ ((s.readX 7#5).toInt ≤ (s.readX 6#5).toInt) ∧ (s.readX 6#5).toNat < (s.readX 7#5).toNat ∧
      ¬ ((s.readX 7#5).toNat ≤ (s.readX 6#5).toNat)) ∧
    ((0x00002063#32).extractLsb' 0 7 = 0b1100011#7 ∧ (0x00002063#32).extractLsb' 12 3 = 0b010#3 ∧
      (0x00003063#32).extractLsb' 0 7 = 0b1100011#7 ∧ (0x00003063#32).extractLsb' 12 3 = 0b011#3) := by
  refine ⟨by decide, by decide +kernel, by decide +kernel, ?_, ?_, by decide⟩ <;>
    exact ⟨by decide, by decide, by decide, by decide, by decide, by decide⟩

/-! ### Control and status registers -/

/-- `mscratch` written, `mhartid` read, in M-mode. -/
theorem witness_CsrAllowed :
    Csr.mscratch.number = 0x340#12 ∧ CsrAllowed (csrState 0 0) .mscratch true ∧
    Csr.mhartid.number = 0xF14#12 ∧ CsrAllowed (csrState 0 0) .mhartid false := by
  unfold CsrAllowed
  decide

/-- Each way of R211 in which the check fails: no CSR at all, no such number, too little privilege, read-only, `satp`. -/
theorem witness_CsrDenied :
    CsrDenied (testState .terminal 0 0) 0x340#12 true ∧ CsrDenied (csrState 0 0) 0x7FF#12 false ∧
    CsrDenied (modeState .u 0x1000 id id) 0x100#12 false ∧ CsrDenied (csrState 0 0) 0xF14#12 true ∧
    CsrDenied (modeState .s 0x1000 (fun f => { f with tvm := true }) id) 0x180#12 false := by
  refine ⟨.inl (.inl (by decide)), .inl (.inr ?_), .inr (.inl (by decide)), .inr (.inr (.inl (by decide))),
    .inr (.inr (.inr (by decide)))⟩
  intro c hc
  cases c <;> revert hc <;> decide

/-- The first and the last writable bit of `mscratch`, and bits of `mepc` and `mip` that no write changes. -/
theorem witness_CsrWriteChangesWritableBitsOnly :
    (Csr.present (testConfig .privileged) .mscratch = true ∧ ¬ legalisedField .mscratch 63 ∧
      writableBits (csrState 0 0) .mscratch 63 ∧ writableBits (csrState 0 0) .mscratch 0) ∧
    (¬ legalisedField .mepc 1 ∧ ¬ writableBits (csrState 0 0) .mepc 1 ∧ writableBits (csrState 0 0) .mepc 2) ∧
    (¬ legalisedField .mip 7 ∧ ¬ writableBits (csrState 0 0) .mip 7 ∧ writableBits (csrState 0 0) .mip 9) := by
  unfold legalisedField writableBits
  decide

theorem witness_LegalisedFieldsKeepLegalValues :
    (csrState 0 0).cfg.hasU = true ∧ { testConfig .privileged with hasU := false }.hasU = false ∧
    (∀ x ∈ [(0x0000#64, Mode.u), (0x0800#64, .s), (0x1800#64, .m)],
      (x.1.extractLsb' 11 2).toNat = x.2.code ∧ x.2.present (csrState 0 0).cfg = true) ∧
    (∀ y : Mode, ((0x1000#64).extractLsb' 11 2).toNat = y.code → y.present (csrState 0 0).cfg = false) ∧
    (∀ y : Mode, ((0x0800#64).extractLsb' 11 2).toNat = y.code →
      y.present { testConfig .privileged with hasS := false } = false) ∧
    (0x8001#64).toNat % 4 < 2 ∧ 2 ≤ (0x8002#64).toNat % 4 := by
  refine ⟨by decide, by decide, by decide, ?_, ?_, by decide, by decide⟩ <;> intro y <;> cases y <;> decide

theorem witness_CsrWriteTouchesOneStorage :
    showsWriteOf .mscratch .sscratch = false ∧ showsWriteOf .mstatus .mie = false ∧
    showsWriteOf .mideleg .sideleg = false := by decide

/-- SIE is written through `sstatus` and UIE through `ustatus`; MIE through neither. -/
theorem witness_StatusViewsShowMstatus :
    (1 ∈ ([0, 1, 4, 5, 8, 18, 19] : List Nat) ∧ writableBits (csrState 0 0) .mstatus 1) ∧
    (0 ∈ ([0, 4] : List Nat) ∧ writableBits (csrState 0 0) .mstatus 0) ∧
    ¬ (3 ∈ ([0, 1, 4, 5, 8, 18, 19] : List Nat) ∧ writableBits (csrState 0 0) .mstatus 3) ∧
    ¬ (3 ∈ ([0, 4] : List Nat) ∧ writableBits (csrState 0 0) .mstatus 3) := by
  refine ⟨⟨by decide, ?_⟩, ⟨by decide, ?_⟩, fun h => absurd h.1 (by decide), fun h => absurd h.1 (by decide)⟩ <;>
    simp only [writableBits] <;> decide

/-- Bit 63 is in range of the statements that speak of each bit of a register. -/
theorem witness_highest_bit : 63 < 64 := by decide

/-- Every delegable interrupt delegated twice: SEIE and UEIE shown and written, MTIE hidden. -/
theorem witness_InterruptViewsShowDelegatedBits :
    let s := modeState .s 0x1000 id (fun c => { c with mideleg := 0x333, sideleg := 0x111, mie := 0xBBB, mip := 0xBBB })
    (9 ∈ ([0, 1, 4, 5, 8, 9] : List Nat) ∧ InMideleg s 9 ∧ (s.csrRead .mie).getLsbD 9 = true) ∧
    (8 ∈ ([0, 1, 8] : List Nat) ∧ InMideleg s 8 ∧ (s.csrRead .mip).getLsbD 8 = true) ∧
    (8 ∈ ([0, 4, 8] : List Nat) ∧ InMideleg s 8 ∧ InSideleg s 8) ∧ (InMideleg s 0 ∧ InSideleg s 0) ∧
    ¬ (7 ∈ ([0, 1, 4, 5, 8, 9] : List Nat) ∧ InMideleg s 7) ∧ (s.csrRead .mie).getLsbD 7 = true := by
  simp only [InMideleg, InSideleg, delegated]
  decide

theorem witness_RemainingCsrsReadAsGiven :
    (modeState .s 0x1000 (fun f => { f with tvm := true }) id).priv = .s ∧
    (modeState .s 0x1000 (fun f => { f with tvm := true }) id).csr.mstatus.tvm = true ∧
    Instr.csrrw 5#5 0x180#12 0#5 = .csrrw 5#5 0x180#12 0#5 := by decide

/-! ### Environment, trap returns, WFI -/

theorem witness_EcallAndEbreak :
    (modeState .u 0x1000 id id).priv = .u ∧ (modeState .s 0x1000 id id).priv = .s ∧ (modeState .m 0x1000 id id).priv = .m ∧
    (modeState .m 0x1000 id id).cfg.trapModel = .privileged := by decide

/-- For URET, SRET and MRET: a state that returns and one for each reason to be illegal. -/
theorem witness_TrapReturns :
    (let s := modeState .u 0x1000 id id
     s.cfg.trapModel = .privileged ∧ s.cfg.hasN = true ∧ s.cfg.hasU = true ∧ s.cfg.hasS = true ∧ s.priv = .u ∧
      s.priv ≠ .m) ∧
    (let s := modeState .s 0x1000 id id
     s.priv = .s ∧ s.csr.mstatus.tsr = false) ∧
    (let s := modeState .m 0x1000 id id
     s.cfg.trapModel = .privileged ∧ s.cfg.hasS = true ∧ s.priv = .m) ∧
    (let s := modeState .s 0x1000 (fun f => { f with tsr := true }) id
     s.priv = .s ∧ s.csr.mstatus.tsr = true) ∧
    (testState .terminal 0 0).cfg.trapModel = .terminal ∧
    (let s : State := { modeState .m 0x1000 id id with
      cfg := { testConfig .privileged with hasS := false, hasU := false, hasN := false } }
     s.cfg.hasN = false ∧ s.cfg.hasU = false ∧ s.cfg.hasS = false) := by decide

/-- WFI in U-mode; in M-mode with an enabled interrupt pending; in S-mode with TW = 1. -/
theorem witness_WfiWaitsOrCompletes :
    ((modeState .u 0x1000 id id).priv = .u ∧ (modeState .u 0x1000 id id).cfg.wfiInU = false) ∧
    ((boundaryState .m id 0x8001 0x80 0x80 0).priv ≠ .u ∧
      ((boundaryState .m id 0x8001 0x80 0x80 0).priv ≠ .m →
        (boundaryState .m id 0x8001 0x80 0x80 0).csr.mstatus.tw = false) ∧
      (boundaryState .m id 0x8001 0x80 0x80 0).cfg.trapModel = .privileged ∧
      PendingEnabled (boundaryState .m id 0x8001 0x80 0x80 0) .mti) ∧
    (let s := modeState .s 0x1000 (fun f => { f with tw := true }) id
     s.priv = .s ∧ s.cfg.trapModel = .privileged ∧ s.csr.mstatus.tw = true) ∧
    (let s : State := { modeState .u 0x1000 (fun f => { f with tw := true }) id with
      cfg := { testConfig .privileged with wfiInU := true } }
     s.priv = .u ∧ s.cfg.wfiInU = true ∧ s.csr.mstatus.tw = true) := by
  unfold PendingEnabled
  decide

/-! ### Exceptions and interrupts -/

/-- The two trap models of `RaiseDeliversTheException`. -/
theorem witness_RaiseDeliversTheException :
    (testState .terminal 0 0).cfg.trapModel = .terminal ∧ (testState .privileged 0 0).cfg.trapModel = .privileged := by
  decide

/-- A state for each clause of R340: M-mode, not delegated, from S-mode, from U-mode delegated once and twice, and without
S-mode. -/
theorem witness_HandlerModeIsDelegated :
    (modeState .m 0x1000 id id).priv = .m ∧ ¬ InMedeleg (modeState .u 0x1000 id id) 8 ∧
    (let s := modeState .s 0x1000 id (fun c => { c with medeleg := 0x100 })
     s.priv = .s ∧ InMedeleg s 8 ∧ s.cfg.hasS = true) ∧
    (let s := modeState .u 0x1000 id (fun c => { c with medeleg := 0x100, sedeleg := 0x100 })
     s.priv = .u ∧ InMedeleg s 8 ∧ s.cfg.hasS = true ∧ s.cfg.hasN = true ∧ InSedeleg s 8) ∧
    (let s := modeState .u 0x1000 id (fun c => { c with medeleg := 0x100 })
     s.priv = .u ∧ InMedeleg s 8 ∧ ¬ InSedeleg s 8) ∧
    (let s : State := { modeState .u 0x1000 id (fun c => { c with medeleg := 0x100 }) with
      cfg := { testConfig .privileged with hasS := false } }
     s.priv = .u ∧ InMedeleg s 8 ∧ s.cfg.hasS = false) := by
  unfold InMedeleg InSedeleg delegated
  decide

theorem witness_TrapEntrySavesAndRedirects : 0x7FFFFFFFFFFFFFFF < 2 ^ 63 ∧ Irq.mei.code < 2 ^ 63 := by decide

theorem witness_HighestPriorityInterruptIsTaken :
    (boundaryState .m (fun f => { f with mie := true }) 0x8001 0x880 0x880 0).samplePlatform.stalled = false ∧
    Takeable (boundaryState .m (fun f => { f with mie := true }) 0x8001 0x880 0x880 0).samplePlatform .mei .m ∧
    Takeable (boundaryState .m (fun f => { f with mie := true }) 0x8001 0x880 0x880 0).samplePlatform .mti .m ∧
    (testState .terminal 0 0).samplePlatform.stalled = false ∧ NoneTakeable (testState .terminal 0 0).samplePlatform := by
  refine ⟨by decide, ⟨by decide, ?_, .inl ⟨?_, rfl⟩, .inr ⟨by decide, by decide⟩⟩,
    ⟨by decide, ?_, .inl ⟨?_, rfl⟩, .inr ⟨by decide, by decide⟩⟩, by decide, noneTakeable_terminal (by decide)⟩ <;>
    first
    | (unfold PendingEnabled; decide)
    | (unfold InMideleg delegated; decide)

/-! ### The whole machine -/

/-- For `OnlyTheDestinationIsWritten`, `OnlyStoresChangeMemory`, `ParametersNeverChange` and, with the invariant of each
below, the statements that every step keeps one: a step and an instruction, neither a store nor FENCE.I, that go on. -/
theorem witness_next_states :
    step (fetching 0x00A00313#32) = .next (stateOf (testState .terminal 0 0) (step (fetching 0x00A00313#32))) ∧
    exec (.add 5#5 6#5 7#5) (testState .terminal 1 2) =
      .next (stateOf (testState .terminal 0 0) (exec (.add 5#5 6#5 7#5) (testState .terminal 1 2))) ∧
    destination (.add 5#5 6#5 7#5) ≠ some 6#5 ∧ isStore (.add 5#5 6#5 7#5) = false ∧
    Instr.add 5#5 6#5 7#5 ≠ .fenceI ∧ (fetching 0x00A00313#32).cfg.trapModel = .terminal :=
  ⟨next_stateOf (by decide), next_stateOf (by decide), by decide, by decide, by decide, by decide⟩

/-- The cases of `OnlyTheDestinationIsWritten` that write no register: a raise, a stall, an interrupt. -/
theorem witness_OnlyTheDestinationIsWritten :
    goesOn ((testState .privileged 0 0).raise .breakpoint 0x1000) = true ∧
    ({ testState .privileged 0 0 with stalled := true } : State).samplePlatform.stalled = true ∧
    goesOn (step { testState .privileged 0 0 with stalled := true }) = true ∧
    goesOn (step (boundaryState .m (fun f => { f with mie := true }) 0x8001 0x880 0x880 0)) = true := by decide

theorem witness_PcStaysAligned : (fetching 0x00A00313#32).pcAligned := by
  unfold State.pcAligned
  decide

theorem witness_MemoryStaysCanonical : (fetching 0x00A00313#32).memoryCanonical := by
  unfold State.memoryCanonical
  decide

theorem within_zero (mask : Word) : within mask 0#64 := by
  intro k h
  simp at h

theorem legal_zero : CsrFile.zero.Legal (testConfig .terminal) where
  mstatus := ⟨by decide, by decide, by decide, by decide⟩
  mepc := by decide
  sepc := by decide
  uepc := by decide
  mtvec := by decide
  stvec := by decide
  utvec := by decide
  medeleg := within_zero _
  mideleg := within_zero _
  sedeleg := within_zero _
  sideleg := within_zero _
  mie := within_zero _
  mip := within_zero _

theorem witness_ControlStateStaysLegal : (fetching 0x00A00313#32).ControlLegal where
  modes := fun _ => rfl
  priv := by decide
  csr := legal_zero

/-- MRET to U-mode as a step. -/
theorem witness_OnlyTrapReturnsLowerPrivilege :
    let s := (modeState .m 0x1000 id id).loadAtPc 0x30200073#32
    step s = .next (stateOf s (step s)) ∧ (stateOf s (step s)).priv.code < s.priv.code :=
  ⟨next_stateOf (by decide), by decide⟩

/-- `csrrw x5,utvec,x6` in U-mode. -/
theorem witness_UserModeCannotChangeHigherState :
    let s := modeState .u 0x1000 id id
    let o := exec (.csrrw 5#5 0x005#12 6#5) s
    s.priv = .u ∧ o = .next (stateOf s o) ∧ (stateOf s o).priv = .u ∧
      (3 ≠ 0 ∧ 3 ≠ 4) ∧ ¬ (InMideleg s 3 ∧ InSideleg s 3 ∧ (3 = 0 ∨ 3 = 4 ∨ 3 = 8)) :=
  ⟨by decide, next_stateOf (by decide), by decide, by decide, fun h => by simp at h⟩

theorem witness_ModeDoesNotMatterToOrdinaryInstructions :
    modeIndependent (.add 5#5 6#5 7#5) = true ∧ (testState .terminal 1 2).cfg.trapModel = .terminal ∧
    exec (.add 5#5 6#5 7#5) (testState .terminal 1 2) =
      .next (stateOf (testState .terminal 0 0) (exec (.add 5#5 6#5 7#5) (testState .terminal 1 2))) :=
  ⟨by decide, by decide, next_stateOf (by decide)⟩

theorem witness_LaunchedHartIsAtReset : 31#5 ≠ 0#5 ∧ CsrFile.zero.Legal (testConfig .terminal) :=
  ⟨by decide, legal_zero⟩

end Sys2Proof.Tests
end

section
/-!
SUPPORT. The invariants of the hart's state (`spec/10_state.md`): what each effect of an instruction does to the registers,
the memory, the parameters, `pc` and the control state, and that the launched hart meets the invariants.
-/

namespace Sys2Proof.Machine

/-! ## Invariants of a step -/

/-- A property of the state that sampling, drawing a free value, taking an interrupt and every effect of an instruction
keep is kept by every step. -/
theorem step_keeps {P : State → Prop} (sample : ∀ s, P s → P s.samplePlatform)
    (draw : ∀ s, P s → P { s with draws := s.draws + 1 })
    (irq : ∀ s c, P s → s.selectIrq = some c → P (s.takeIrq c))
    (effect : ∀ i s t, P s → Effect i s t → P t) {s t : State} (hs : P s) (h : step s = .next t) : P t := by
  have afterFetch : ∀ v : State, (v = s.samplePlatform ∨
      v = { s.samplePlatform with draws := s.samplePlatform.draws + 1 }) → P v := by
    rintro v (rfl | rfl)
    · exact sample s hs
    · exact draw _ (sample s hs)
  obtain ⟨u, rfl, hstall | hirq | hexec | hraise⟩ := step_cases h
  · obtain ⟨-, hwfi⟩ := hstall
    exact effect _ _ _ (sample s hs) (exec_effect hwfi)
  · obtain ⟨-, c, hc, rfl⟩ := hirq
    exact irq _ c (sample s hs) hc
  · obtain ⟨-, -, v, i, hv, -, hi⟩ := hexec
    exact effect i v t (afterFetch v hv) (exec_effect hi)
  · obtain ⟨-, -, v, e, w, hv, hr⟩ := hraise
    -- A raise is an effect of every instruction, so any instruction serves.
    exact effect .ecall v t (afterFetch v hv) (Effect.ofRaise hr)

/-! ## What an effect leaves unchanged -/

theorem Effect.cfg_eq {i : Instr} {s t : State} (h : Effect i s t) : t.cfg = s.cfg := by
  cases h <;> simp

/-- No effect but a store's changes memory. -/
theorem Effect.mem_eq {i : Instr} {s t : State} (h : Effect i s t) (hi : isStore i = false) : t.mem = s.mem := by
  cases h
  case store _ _ _ hs => simp [hi] at hs
  all_goals simp

/-- Only a store and FENCE.I change the set S of R66. -/
theorem Effect.stored_eq {i : Instr} {s t : State} (h : Effect i s t) (hi : isStore i = false) (hf : i ≠ .fenceI) :
    t.stored = s.stored := by
  cases h
  case store _ _ _ hs => simp [hi] at hs
  case sync hs => exact absurd hs hf
  all_goals simp

/-- An effect writes no integer register, or the destination of its instruction. -/
theorem Effect.registers {i : Instr} {s t : State} (h : Effect i s t) :
    SameRegisters s t ∨ ∃ rd v, destination i = some rd ∧ WritesRegister rd v s t := by
  cases h
  case write rd v hd => exact .inr ⟨rd, v, hd, writesRegister_writeX s rd v _⟩
  case link rd a hd _ => exact .inr ⟨rd, _, hd, writesRegister_writeX s rd _ a⟩
  case csr rd n c v hd _ => exact .inr ⟨rd, _, hd, writesRegister_writeX (s.csrWrite c v) rd _ _⟩
  all_goals exact .inl (State.readX_congr (by simp))

/-- Every effect keeps `pc` a multiple of 4: it advances by 4, stays, or goes to a checked or rounded address. -/
theorem Effect.pc_aligned {i : Instr} {s t : State} (h : Effect i s t) (hs : s.pcAligned) : t.pcAligned := by
  have next : (s.pc + 4).toNat % 4 = 0 := advance_aligned hs
  unfold State.pcAligned
  cases h
  case link _ a _ ha => simpa using (aligned4_iff a).1 ha
  case goto a ha => simpa using (aligned4_iff a).1 ha
  case ret y _ _ _ => simpa using clearLow2_toNat _
  case raise => simpa using trapTarget_aligned ..
  case timeout => simpa using trapTarget_aligned ..
  case stall =>
    rw [State.stall_pc]
    split
    · exact next
    · exact hs
  all_goals simpa using next

/-! ## Interrupts: the rules' terms and the model's selection -/

/-- The delegation tests of the rules, in the model's terms: a register that does not exist counts as 0 (R340). -/
theorem inMideleg_iff (s : State) (k : Nat) : InMideleg s k ↔ s.midelegOrZero.getLsbD k = true := by
  unfold InMideleg delegated State.midelegOrZero
  split <;> simp [*]

theorem inSideleg_iff (s : State) (k : Nat) : InSideleg s k ↔ s.sidelegOrZero.getLsbD k = true := by
  unfold InSideleg delegated State.sidelegOrZero
  split <;> simp [*]

theorem handlesInterrupt_iff (s : State) (c : Irq) (y : Mode) : HandlesInterrupt s c y ↔ y = s.irqHandler c := by
  unfold HandlesInterrupt State.irqHandler
  rw [inMideleg_iff, inSideleg_iff]
  cases s.midelegOrZero.getLsbD c.code with
  | false => simp
  | true => cases s.cfg.hasS <;> cases s.cfg.hasN <;> cases s.sidelegOrZero.getLsbD c.code <;> simp

theorem takeable_iff (s : State) (c : Irq) (y : Mode) :
    Takeable s c y ↔ s.privileged = true ∧ y = s.irqHandler c ∧ s.irqTakeable c = true := by
  have rules : Takeable s c y ↔ s.privileged = true ∧ s.irqPending c = true ∧ y = s.irqHandler c ∧
      (s.priv.code < y.code ∨ s.priv = y ∧ s.csr.mstatus.ie y = true) := by
    rw [← handlesInterrupt_iff, show s.privileged = true ↔ s.cfg.trapModel = .privileged from beq_iff_eq,
      show s.irqPending c = true ↔ PendingEnabled s c from Bool.and_eq_true_iff]
    cases y <;> exact Iff.rfl
  rw [rules]
  constructor
  · rintro ⟨hp, hpend, rfl, habove⟩
    exact ⟨hp, rfl, by simpa [State.irqTakeable, hpend] using habove⟩
  · rintro ⟨hp, rfl, ht⟩
    obtain ⟨hpend, habove⟩ : s.irqPending c = true ∧
        (s.priv.code < (s.irqHandler c).code ∨ s.priv = s.irqHandler c ∧ s.csr.mstatus.ie (s.irqHandler c) = true) := by
      simpa [State.irqTakeable] using ht
    exact ⟨hp, hpend, rfl, habove⟩

/-- Where an interrupt is takeable, one is selected. -/
theorem State.selectIrq_ne_none {s : State} {c : Irq} {y : Mode} (h : Takeable s c y) : s.selectIrq ≠ none := by
  obtain ⟨hp, hy, ht⟩ := (takeable_iff s c y).1 h
  have hmode : y ∈ [Mode.m, Mode.s, Mode.u] := by cases y <;> decide
  have hirq : c ∈ Irq.byPriority := by cases c <;> decide
  intro hn
  rw [State.selectIrq, if_pos hp, List.findSome?_eq_none_iff] at hn
  have := List.find?_eq_none.1 (hn y hmode) c hirq
  simp [← hy, ht] at this

/-! ## Bits that no write can set -/

theorem within_refl (m : Word) : within m m := fun _ hk => hk

theorem within_zero (m : Word) : within m 0 := by
  intro k hk
  simp at hk

theorem within.trans {a b v : Word} (hab : within a b) (hbv : within b v) : within a v :=
  fun k hk => hab k (hbv k hk)

theorem within_and_left (a b : Word) : within a (a &&& b) := by
  intro k hk
  rw [BitVec.getLsbD_and, Bool.and_eq_true] at hk
  exact hk.1

theorem within_and_right (a b : Word) : within b (a &&& b) :=
  BitVec.and_comm a b ▸ within_and_left b a

theorem within_or {m a b : Word} (ha : within m a) (hb : within m b) : within m (a ||| b) := by
  intro k hk
  rw [BitVec.getLsbD_or, Bool.or_eq_true] at hk
  exact hk.elim (ha k) (hb k)

/-- A write through a mask sets no bit outside the mask. -/
theorem within_maskedWrite {m w old : Word} (v : Word) (hw : within m w) (hold : within m old) :
    within m (maskedWrite w old v) :=
  within_or (hold.trans (within_and_left _ _)) (hw.trans (within_and_right _ _))

theorem and_eq_self_of_within {m v : Word} (h : within m v) : v &&& m = v := by
  ext k hk
  rw [BitVec.getElem_and, ← BitVec.getLsbD_eq_getElem, ← BitVec.getLsbD_eq_getElem]
  cases hv : v.getLsbD k with
  | false => rfl
  | true => simp [h k hv]

/-- The multiples of 4 as a mask: bits 1-0, which each xepc cannot hold (R334), are 0. -/
theorem within_not_three_iff (v : Word) : within (~~~3#64) v ↔ v.toNat % 4 = 0 := by
  constructor
  · intro h
    have := clearLow2_toNat v
    rwa [clearLow2, and_eq_self_of_within h] at this
  · intro h k hk
    have hlt : k < 64 := BitVec.lt_of_getLsbD hk
    have hge : 2 ≤ k := by
      by_contra hlow
      have := Nat.testBit_mod_two_pow v.toNat 2 k
      rw [show v.toNat % 2 ^ 2 = 0 from h, show v.toNat.testBit k = true from hk] at this
      simp at this
      omega
    have h3 : (3#64).getLsbD k = false :=
      Nat.testBit_lt_two_pow ((show 3 < 2 ^ 2 by decide).trans_le (Nat.pow_le_pow_right two_pos hge))
    rw [BitVec.getLsbD_not, h3]
    simp [hlt]

/-- MODE of a trap vector is 0 or 1 (R333) when its upper bit is 0. -/
theorem mode_legal_iff (v : Word) : v.toNat % 4 < 2 ↔ v.getLsbD 1 = false := by
  rw [BitVec.getLsbD, Nat.testBit_eq_decide_div_mod_eq, decide_eq_false_iff_not]
  omega

theorem epc_maskedWrite {old : Word} (v : Word) (h : old.toNat % 4 = 0) :
    (maskedWrite (~~~3#64) old v).toNat % 4 = 0 :=
  (within_not_three_iff _).1 (within_maskedWrite v (within_refl _) ((within_not_three_iff _).2 h))

theorem mode_legal_tvecWrite {old : Word} (v : Word) (h : old.toNat % 4 < 2) : (tvecWrite old v).toNat % 4 < 2 := by
  rw [mode_legal_iff] at h ⊢
  unfold tvecWrite
  split
  next => simpa [maskedWrite] using h
  next hv => exact Bool.eq_false_of_not_eq_true hv

/-! ## The fields of mstatus -/

theorem leastMode_present (cfg : Config) : (leastMode cfg).present cfg = true := by
  cases h : cfg.hasU <;> simp [leastMode, Mode.present, h]

theorem mppHolds_present {cfg : Config} {y : Mode} (h : y.present cfg = true) : (mppHolds cfg y).present cfg = true := by
  cases hu : cfg.hasU
  · rw [mppHolds_of_not_hasU hu]; rfl
  · rwa [mppHolds_of_hasU hu]

theorem legalMpp_present {cfg : Config} {old : Mode} (h : old.present cfg = true) (written : BitVec 2) :
    (legalMpp cfg old written).present cfg = true := by
  unfold legalMpp
  split
  · split
    · assumption
    · exact h
  · exact h

theorem Mstatus.hardwire_legal {cfg : Config} {f : Mstatus} (h : f.mpp.present cfg = true) :
    (f.hardwire cfg).Legal cfg where
  userFields hu := by simp [Mstatus.hardwire, hu]
  supervisorFields hs := by simp [Mstatus.hardwire, hs]
  withoutUser hu := by simp [Mstatus.hardwire, hu]
  mpp := mppHolds_present h

/-- The hardwired fields of a legal `mstatus` have their fixed values already. -/
theorem Mstatus.hardwire_of_legal {cfg : Config} {f : Mstatus} (h : f.Legal cfg) : f.hardwire cfg = f := by
  have keep : ∀ {b x : Bool}, (b = false → x = false) → (b && x) = x := by decide
  have hmpp : mppHolds cfg f.mpp = f.mpp := by
    cases hu : cfg.hasU
    · rw [mppHolds_of_not_hasU hu, (h.withoutUser hu).2.2]
    · exact mppHolds_of_hasU hu _
  obtain ⟨user, supervisor, withoutUser, -⟩ := h
  simp only [imp_and] at user supervisor withoutUser
  obtain ⟨uie, upie⟩ := user
  obtain ⟨sie, spie, spp, sum, mxr, tvm, tsr⟩ := supervisor
  obtain ⟨mprv, tw, -⟩ := withoutUser
  simp only [Mstatus.hardwire, hmpp, keep uie, keep upie, keep sie, keep spie, keep spp, keep sum, keep mxr, keep tvm,
    keep tsr, keep mprv, keep tw]

theorem Mstatus.write_legal {cfg : Config} {f : Mstatus} (h : f.Legal cfg) (v : Word) : (f.write cfg v).Legal cfg :=
  Mstatus.hardwire_legal (legalMpp_present h.mpp _)

theorem Mstatus.enterTrap_legal {cfg : Config} {f : Mstatus} {p y : Mode} (h : f.Legal cfg)
    (hp : p.present cfg = true) (hy : y.present cfg = true) : (f.enterTrap cfg p y).Legal cfg := by
  cases y with
  | u => exact { h with userFields := fun hu => ⟨rfl, (h.userFields hu).1⟩ }
  | s =>
    have hs : cfg.hasS = true := hy
    exact { h with supervisorFields := fun hn => by simp [hs] at hn }
  | m =>
    exact { h with
      withoutUser := fun hu => ⟨(h.withoutUser hu).1, (h.withoutUser hu).2.1, mppHolds_of_not_hasU hu p⟩
      mpp := mppHolds_present hp }

/-- A trap return from a mode leaves `mstatus` legal where that mode has the return (R323). -/
theorem Mstatus.leaveTrap_legal {cfg : Config} {f : Mstatus} {y : Mode} (h : f.Legal cfg)
    (hu : y = .u → userTraps cfg = true) (hs : y = .s → cfg.hasS = true) : (f.leaveTrap cfg y).Legal cfg := by
  cases y with
  | u => exact { h with userFields := fun hn => by simp [hu rfl] at hn }
  | s => exact { h with supervisorFields := fun hn => by simp [hs rfl] at hn }
  | m =>
    exact { h with
      withoutUser := fun hn => ⟨(h.withoutUser hn).1, (h.withoutUser hn).2.1, by simp [Mstatus.leaveTrap, leastMode, hn]⟩
      mpp := leastMode_present cfg }

/-! ## The CSR file -/

theorem State.midelegOrZero_within {s : State} (h : s.csr.Legal s.cfg) :
    within (interruptBits s.cfg) s.midelegOrZero := by
  unfold State.midelegOrZero
  split
  · exact (within_and_right _ _).trans h.mideleg
  · exact within_zero _

/-- The views of `mie` and `mip` show bits that exist only (R338). -/
theorem State.supervisorView_within {s : State} (h : s.csr.Legal s.cfg) :
    within (interruptBits s.cfg) s.supervisorView :=
  (State.midelegOrZero_within h).trans (within_and_right _ _)

theorem State.userView_within {s : State} (h : s.csr.Legal s.cfg) : within (interruptBits s.cfg) s.userView :=
  (State.midelegOrZero_within h).trans ((within_and_right _ _).trans (within_and_left _ _))

theorem State.csrFileWrite_legal {s : State} (h : s.csr.Legal s.cfg) (c : Csr) (v : Word) :
    (s.csrFileWrite v c).Legal s.cfg := by
  cases c
  case mstatus | sstatus | ustatus => exact { h with mstatus := Mstatus.write_legal h.mstatus _ }
  case mtvec => exact { h with mtvec := mode_legal_tvecWrite v h.mtvec }
  case stvec => exact { h with stvec := mode_legal_tvecWrite v h.stvec }
  case utvec => exact { h with utvec := mode_legal_tvecWrite v h.utvec }
  case mepc => exact { h with mepc := epc_maskedWrite v h.mepc }
  case sepc => exact { h with sepc := epc_maskedWrite v h.sepc }
  case uepc => exact { h with uepc := epc_maskedWrite v h.uepc }
  case medeleg => exact { h with medeleg := within_maskedWrite v (within_refl _) h.medeleg }
  case mideleg => exact { h with mideleg := within_maskedWrite v (within_refl _) h.mideleg }
  case sedeleg => exact { h with sedeleg := within_maskedWrite v (within_refl _) h.sedeleg }
  case sideleg => exact { h with sideleg := within_maskedWrite v (within_refl _) h.sideleg }
  case mie => exact { h with mie := within_maskedWrite v (within_refl _) h.mie }
  case sie => exact { h with mie := within_maskedWrite v (State.supervisorView_within h) h.mie }
  case uie => exact { h with mie := within_maskedWrite v (State.userView_within h) h.mie }
  case mip => exact { h with mip := within_maskedWrite v (within_and_right _ _) h.mip }
  case sip =>
    exact { h with mip := within_maskedWrite v ((State.supervisorView_within h).trans (within_and_right _ _)) h.mip }
  case uip => exact { h with mip := within_maskedWrite v ((State.userView_within h).trans (within_and_right _ _)) h.mip }
  all_goals exact { h with }

theorem CsrFile.enterTrap_legal {cfg : Config} {c : CsrFile} {p y : Mode} (h : c.Legal cfg) (hp : p.present cfg = true)
    (hy : y.present cfg = true) (cause tval epc : Word) : (c.enterTrap cfg p cause tval epc y).Legal cfg := by
  have hm := Mstatus.enterTrap_legal h.mstatus hp hy
  cases y with
  | u => exact { h with mstatus := hm, uepc := clearLow2_toNat epc }
  | s => exact { h with mstatus := hm, sepc := clearLow2_toNat epc }
  | m => exact { h with mstatus := hm, mepc := clearLow2_toNat epc }

/-! ## The control state -/

/-- The control state is made of the parameters, the mode and the CSRs. -/
theorem State.ControlLegal.congr {s t : State} (h : s.ControlLegal) (hcfg : t.cfg = s.cfg) (hpriv : t.priv = s.priv)
    (hcsr : t.csr = s.csr) : t.ControlLegal := by
  obtain ⟨modes, priv, csr⟩ := h
  exact ⟨hcfg ▸ modes, by rwa [hpriv, hcfg], by rwa [hcsr, hcfg]⟩

/-- The modes of a standard combination with user-level traps or S-mode have U-mode (R323). -/
theorem hasU_of_machineDelegation {cfg : Config} (hm : standardModes cfg) (h : machineDelegation cfg = true) :
    cfg.hasU = true := by
  rcases (Bool.or_eq_true ..).mp h with hs | hu
  · exact hm hs
  · exact ((Bool.and_eq_true ..).mp hu).2

/-- An exception is handled in a mode that exists. -/
theorem State.exceptionHandler_present {s : State} (h : s.ControlLegal) (c : Nat) :
    (s.exceptionHandler c).present s.cfg = true := by
  have user : (s.priv == .u) = true → s.cfg.hasU = true := fun hu => by
    simpa [eq_of_beq hu, Mode.present] using h.priv
  unfold State.exceptionHandler
  split
  · rfl
  · split
    · split
      · exact user (by simp_all)
      · assumption
    · split
      · exact user ‹_›
      · rfl

/-- An interrupt is handled in a mode that exists. -/
theorem State.irqHandler_present {s : State} (h : s.ControlLegal) (c : Irq) :
    (s.irqHandler c).present s.cfg = true := by
  unfold State.irqHandler
  split
  · rfl
  · split
    · simp_all [Mode.present]
    · have hd : machineDelegation s.cfg = true := by
        by_contra hd
        simp_all [State.midelegOrZero]
      exact hasU_of_machineDelegation h.modes hd

theorem State.ControlLegal.takeTrap {s : State} (h : s.ControlLegal) (i : Bool) (c : Nat) (tval epc : Word) {y : Mode}
    (hy : y.present s.cfg = true) : (s.takeTrap i c tval epc y).ControlLegal where
  modes := h.modes
  priv := hy
  csr := CsrFile.enterTrap_legal h.csr h.priv hy ..

theorem State.ControlLegal.trapReturn {s : State} (h : s.ControlLegal) {y : Mode}
    (hu : y = .u → userTraps s.cfg = true) (hs : y = .s → s.cfg.hasS = true) : (s.trapReturn y).ControlLegal where
  modes := h.modes
  priv := by
    rw [State.trapReturn_priv, State.trapReturn_cfg]
    cases y with
    | u => exact ((Bool.and_eq_true ..).mp (hu rfl)).2
    | s =>
      show (if s.csr.mstatus.spp then Mode.s else Mode.u).present s.cfg = true
      split
      · exact hs rfl
      · exact h.modes (hs rfl)
    | m => exact mppHolds_present h.csr.mstatus.mpp
  csr := { h.csr with mstatus := Mstatus.leaveTrap_legal h.csr.mstatus hu hs }

theorem State.ControlLegal.csrWrite {s : State} (h : s.ControlLegal) (c : Csr) (v : Word) :
    (s.csrWrite c v).ControlLegal :=
  ⟨h.modes, h.priv, State.csrFileWrite_legal h.csr c v⟩

/-- The platform drives bits of `mip` that exist with every set of modes (R338). -/
theorem State.ControlLegal.samplePlatform {s : State} (h : s.ControlLegal) : s.samplePlatform.ControlLegal := by
  rcases State.samplePlatform_cases s with hs | ⟨-, -, hs⟩
  · rwa [hs]
  · rw [hs]
    have machine : within (interruptBits s.cfg) platformMask :=
      fun k hk => by
        simp only [interruptBits, BitVec.getLsbD_or, Bool.or_eq_true]
        exact .inl (.inl hk)
    exact ⟨h.modes, h.priv, { h.csr with
      mip := within_or (machine.trans (within_and_right _ _)) (h.csr.mip.trans (within_and_left _ _)) }⟩

/-- Every effect keeps the control state legal. -/
theorem Effect.controlLegal {i : Instr} {s t : State} (e : Effect i s t) (h : s.ControlLegal) : t.ControlLegal := by
  cases e
  case csr rd n c v _ _ => exact (h.csrWrite c v).congr (by simp) (by simp) (by simp)
  case ret y _ _ hy =>
    rcases hy with ⟨rfl, hu⟩ | ⟨rfl, hs, -⟩ | ⟨rfl, -⟩
    · exact h.trapReturn (fun _ => hu) nofun
    · exact h.trapReturn nofun (fun _ => hs)
    · exact h.trapReturn nofun nofun
  case raise => exact h.takeTrap _ _ _ _ (State.exceptionHandler_present h _)
  case timeout =>
    exact State.ControlLegal.takeTrap (s := { s with stalled := false, draws := s.draws + 1 }) (h.congr rfl rfl rfl)
      _ _ _ _ (State.exceptionHandler_present h _)
  all_goals exact h.congr (by simp) (by simp) (by simp)

/-! ## The launched hart -/

theorem clearLow2_of_aligned {v : Word} (h : v.toNat % 4 = 0) : clearLow2 v = v :=
  and_eq_self_of_within ((within_not_three_iff v).2 h)

theorem tvecWrite_of_mode_legal {v : Word} (old : Word) (h : v.toNat % 4 < 2) : tvecWrite old v = v := by
  unfold tvecWrite
  rw [(mode_legal_iff v).1 h]
  rfl

theorem Mstatus.atReset_legal (cfg : Config) (f : Mstatus) : (f.atReset cfg).Legal cfg := by
  refine Mstatus.hardwire_legal ?_
  show (if f.mpp.present cfg then f.mpp else leastMode cfg).present cfg = true
  split
  · assumption
  · exact leastMode_present cfg

/-- Reset changes MIE and MPRV only in an `mstatus` that is legal. -/
theorem Mstatus.atReset_of_legal {cfg : Config} {f : Mstatus} (h : f.Legal cfg) :
    f.atReset cfg = { f with mie := false, mprv := false } := by
  unfold Mstatus.atReset
  rw [if_pos h.mpp]
  exact Mstatus.hardwire_of_legal (f := { f with mie := false, mprv := false })
    { h with withoutUser := fun hu => ⟨rfl, (h.withoutUser hu).2⟩ }

theorem CsrFile.atReset_legal (cfg : Config) (c : CsrFile) : (c.atReset cfg).Legal cfg where
  mstatus := c.mstatus.atReset_legal cfg
  mepc := clearLow2_toNat _
  sepc := clearLow2_toNat _
  uepc := clearLow2_toNat _
  mtvec := mode_legal_tvecWrite _ (by decide)
  stvec := mode_legal_tvecWrite _ (by decide)
  utvec := mode_legal_tvecWrite _ (by decide)
  medeleg := within_and_right _ _
  mideleg := within_and_right _ _
  sedeleg := within_and_right _ _
  sideleg := within_and_right _ _
  mie := within_and_right _ _
  mip := within_and_right _ _

/-- Reset changes MIE and MPRV only in CSRs that are legal. -/
theorem CsrFile.atReset_of_legal {cfg : Config} {c : CsrFile} (h : c.Legal cfg) :
    c.atReset cfg = { c with mstatus := { c.mstatus with mie := false, mprv := false } } := by
  unfold CsrFile.atReset medelegMask midelegMask sedelegMask sidelegMask
  rw [Mstatus.atReset_of_legal h.mstatus, tvecWrite_of_mode_legal 0 h.mtvec, tvecWrite_of_mode_legal 0 h.stvec,
    tvecWrite_of_mode_legal 0 h.utvec, clearLow2_of_aligned h.mepc, clearLow2_of_aligned h.sepc,
    clearLow2_of_aligned h.uepc, and_eq_self_of_within h.medeleg, and_eq_self_of_within h.mideleg,
    and_eq_self_of_within h.sedeleg, and_eq_self_of_within h.sideleg, and_eq_self_of_within h.mie,
    and_eq_self_of_within h.mip]

theorem State.reset_pcAligned : State.reset.pcAligned := rfl

theorem State.reset_controlLegal : State.reset.ControlLegal where
  modes := fun _ => rfl
  priv := rfl
  csr := CsrFile.atReset_legal Config.launchDefault CsrFile.zero

/-! ## The registers in a step -/

theorem State.raise_x {s t : State} {e : Exc} {info : Word} (h : s.raise e info = .next t) : t.x = s.x := by
  obtain ⟨-, rfl⟩ := State.raise_next h
  exact State.takeTrap_x ..

/-- Sampling and fetching change no register, so the registers an effect leaves are told from the state before the step. -/
theorem Effect.registers_from {i : Instr} {s v t : State} (e : Effect i v t) (hx : v.x = s.x) :
    SameRegisters s t ∨ ∃ rd value, destination i = some rd ∧ WritesRegister rd value s t := by
  have hread := State.readX_congr hx
  rcases e.registers with hsame | ⟨rd, value, hd, hw⟩
  · exact .inl fun r => (hsame r).trans (hread r)
  · exact .inr ⟨rd, value, hd, fun r => by rw [hw r, hread r]⟩

/-- A step that writes a register runs the fetched instruction, with no WFI in progress and no interrupt selected. -/
theorem step_registers {s t : State} (h : step s = .next t) :
    SameRegisters s t ∨
      s.samplePlatform.stalled = false ∧ s.samplePlatform.selectIrq = none ∧
        ∃ (i : Instr) (v : State) (rd : Reg) (value : Word),
          decodeWord (fetchedWord s.samplePlatform) = .ok i ∧
          (v = s.samplePlatform ∨ v = { s.samplePlatform with draws := s.samplePlatform.draws + 1 }) ∧
          exec i v = .next t ∧ destination i = some rd ∧ WritesRegister rd value s t := by
  have sampled : s.samplePlatform.x = s.x := State.samplePlatform_x s
  have fetched : ∀ v : State, (v = s.samplePlatform ∨
      v = { s.samplePlatform with draws := s.samplePlatform.draws + 1 }) → v.x = s.x := by
    rintro v (rfl | rfl) <;> exact sampled
  obtain ⟨u, rfl, hstall | hirq | hexec | hraise⟩ := step_cases h
  · obtain ⟨-, hwfi⟩ := hstall
    exact ((exec_effect hwfi).registers_from sampled).imp_right fun ⟨_, _, hd, _⟩ => nomatch hd
  · obtain ⟨-, c, -, rfl⟩ := hirq
    exact .inl (State.readX_congr sampled)
  · obtain ⟨hs, hn, v, i, hv, hdec, hi⟩ := hexec
    exact ((exec_effect hi).registers_from (fetched v hv)).imp_right fun ⟨rd, value, hd, hw⟩ =>
      ⟨hs, hn, i, v, rd, value, hdec, hv, hi, hd, hw⟩
  · obtain ⟨-, -, v, e, w, hv, hr⟩ := hraise
    exact .inl (State.readX_congr ((State.raise_x hr).trans (fetched v hv)))

/-! ## The statements -/

/-- Settles O53: the invariant of `Effect.pc_aligned`, which an interrupt's target keeps too. -/
theorem pcStaysAligned : Obligations.PcStaysAligned := by
  intro s t hs h
  refine step_keeps (P := State.pcAligned) (fun s hs => ?_) (fun s hs => hs) (fun s c _ _ => ?_)
    (fun i s t hs e => e.pc_aligned hs) hs h
  · unfold State.pcAligned
    rwa [State.samplePlatform_pc]
  · exact trapTarget_aligned ..

/-- Settles O55: the invariant of `Effect.controlLegal`; an interrupt is handled in a mode that exists. -/
theorem controlStateStaysLegal : Obligations.ControlStateStaysLegal := by
  intro s t hs h
  exact step_keeps (fun _ hs => hs.samplePlatform) (fun _ hs => hs.congr rfl rfl rfl)
    (fun _ c hs _ => hs.takeTrap _ _ _ _ (State.irqHandler_present hs c)) (fun _ _ _ hs e => e.controlLegal hs) hs h

/-- Settles O50, from the one register each effect of an instruction can write. -/
theorem onlyTheDestinationIsWritten : Obligations.OnlyTheDestinationIsWritten := by
  refine ⟨fun i s t r h hr => ?_, fun s t e info h => ?_, fun s t hstop h => ?_, fun s t h => ?_⟩
  · rcases (exec_effect h).registers with hsame | ⟨rd, v, hd, hw⟩
    · exact hsame r
    · rw [hw r, if_neg]
      rintro ⟨rfl, -⟩
      exact hr hd
  · exact State.readX_congr (State.raise_x h)
  · rcases step_registers h with hsame | ⟨hs, hn, -⟩
    · exact hsame
    · rcases hstop with hstalled | ⟨c, y, hc⟩
      · rw [hs] at hstalled
        cases hstalled
      · exact absurd hn (State.selectIrq_ne_none hc)
  · exact (step_registers h).imp_right fun ⟨_, _, hrun⟩ => hrun

/-- Settles O51: no effect but a store's changes memory, none but a store's and FENCE.I's the set S. -/
theorem onlyStoresChangeMemory : Obligations.OnlyStoresChangeMemory := by
  intro i s t h hi
  have e := exec_effect h
  exact ⟨State.readByte_congr (e.mem_eq hi), e.stored_eq hi⟩

/-- Settles O52: no effect changes the parameters. -/
theorem parametersNeverChange : Obligations.ParametersNeverChange := by
  intro s t h
  exact step_keeps (P := fun u => u.cfg = s.cfg) (fun u hu => by rw [State.samplePlatform_cfg, hu]) (fun _ hu => hu)
    (fun _ _ hu _ => hu) (fun _ _ _ hu e => e.cfg_eq.trans hu) rfl h

/-- Settles O49. -/
theorem registerZeroIsHardwired : Obligations.RegisterZeroIsHardwired :=
  fun s v r => ⟨s.readX_zero, rfl, s.readX_writeX r v⟩

/-- Settles O59, from what reset does to any CSR file and to a legal one. -/
theorem launchedHartIsAtReset : Obligations.LaunchedHartIsAtReset := by
  intro cfg image x csr
  exact ⟨rfl, rfl, rfl, fun r hr => if_neg hr, rfl, Bool.and_false _, csr.atReset_legal cfg,
    CsrFile.atReset_of_legal, fun _ => rfl, fun _ => rfl⟩

/-- Settles O60: State.reset is a launch, whose CSRs are legal. -/
theorem resetMeetsTheInvariants : Obligations.ResetMeetsTheInvariants :=
  ⟨State.reset_eq_launch, State.reset_pcAligned, State.wf_reset, State.reset_controlLegal⟩

end Sys2Proof.Machine
end

section
/-!
SUPPORT. Decoding the words of a format (`spec/30_encoding.md` R91 to R110): no word matches two rows of the opcode table, so the
row that accepts a word decodes it; and the layouts of R93, R94 and R105 are the words of their rows.
-/

namespace Sys2Proof

/-! ## Decoding by the row that accepts (R110) -/

/-- No word can match both rows: at some bit that both test, they ask for different values. -/
def OpcodeRow.conflicts (a b : OpcodeRow) : Bool := a.pattern &&& b.mask != b.pattern &&& a.mask

theorem OpcodeRow.not_accepts_of_conflicts {a b : OpcodeRow} (h : a.conflicts b = true) (w : InstWord) :
    ¬ (a.accepts w = true ∧ b.accepts w = true) := by
  rintro ⟨ha, hb⟩
  rw [OpcodeRow.accepts, beq_iff_eq] at ha hb
  refine bne_iff_ne.1 h ?_
  rw [← ha, ← hb, BitVec.and_assoc, BitVec.and_assoc, BitVec.and_comm a.mask]

theorem opcodeTable_conflicts : opcodeTable.Pairwise (fun a b => a.conflicts b = true) := by decide

/-- The row that accepts a word gives the instruction, since no row before it can accept the word. -/
theorem decodeWord_of_accepts {w : InstWord} {row : OpcodeRow} (hrow : row ∈ opcodeTable)
    (h : row.accepts w = true) : decodeWord w = .ok (row.build w) := by
  obtain ⟨before, after, htable⟩ := List.append_of_mem hrow
  have hbefore : ∀ a ∈ before, ¬ a.accepts w = true := fun a ha hw => by
    have := opcodeTable_conflicts
    rw [htable] at this
    exact OpcodeRow.not_accepts_of_conflicts ((List.pairwise_append.1 this).2.2 a ha row List.mem_cons_self) w ⟨hw, h⟩
  have hfind : opcodeTable.find? (fun row => row.accepts w) = some row :=
    List.find?_eq_some_iff_append.2 ⟨h, before, after, htable, fun a ha => by simpa using hbefore a ha⟩
  rw [decodeWord, hfind]

/-- A field made of two is the two of them placed one above the other. -/
theorem place_append {m n : Nat} (hi : BitVec m) (lo : BitVec n) (k : Nat) :
    place (hi ++ lo) k = place hi (k + n) ||| place lo k := by
  refine BitVec.eq_of_getLsbD_eq fun i hi' => ?_
  simp only [place, BitVec.getLsbD_or, BitVec.getLsbD_shiftLeft, BitVec.getLsbD_setWidth, BitVec.getLsbD_append]
  by_cases hk : i < k
  · simp [hk, show i < k + n by omega]
  · by_cases hn : i - k < n
    · simp [hk, hi', hn, show i < k + n by omega]
    · have := BitVec.getLsbD_of_ge lo (i - k) (by omega)
      simp [hk, hi', hn, show ¬ i < k + n by omega, Nat.sub_sub, this, show i - k < 32 by omega,
        show i - (k + n) < 32 by omega]

theorem place_zero (w : InstWord) : place w 0 = w := by simp [place]

theorem place_of_zero (n k : Nat) : place 0#n k = 0#32 := by simp [place]

end Sys2Proof

namespace Sys2Proof.Machine

/-- An instruction is the one its row builds from its word, when the word agrees with the row's pattern under its mask. -/
theorem encodes_of_row {w : InstWord} {i : Instr} {row : OpcodeRow} (hrow : row ∈ opcodeTable)
    (henc : encode i = w) (hmask : w &&& row.mask = row.pattern) (hbuild : row.build w = i) : Encodes w i :=
  ⟨henc, by rw [decodeWord_of_accepts hrow (beq_iff_eq.2 hmask), hbuild]⟩

/-! ### The I format (R93, R98) -/

theorem layoutI_eq_place (imm : BitVec 12) (rs1 : Reg) (f3 : BitVec 3) (rd : Reg) (op : BitVec 7) :
    layoutI imm rs1 f3 rd op = place imm 20 ||| place rs1 15 ||| place f3 12 ||| place rd 7 ||| place op 0 := by
  rw [← place_zero (layoutI imm rs1 f3 rd op), layoutI, place_append, place_append, place_append, place_append]

/-- The encoder puts the operands where the layout has them. -/
theorem encIType_layoutI (imm : BitVec 12) (rs1 : Reg) (f3 : BitVec 3) (rd : Reg) (op : BitVec 7) :
    encIType (layoutI 0#12 0#5 f3 0#5 op) rd rs1 imm = layoutI imm rs1 f3 rd op := by
  simp only [encIType, layoutI_eq_place, place_of_zero]
  generalize place imm 20 = a, place rs1 15 = b, place f3 12 = c, place rd 7 = d, place op 0 = e
  simp only [BitVec.zero_or, BitVec.or_zero]
  ac_rfl

/-- The mask of an I-format row keeps `funct3` and the opcode. -/
theorem layoutI_and_mask (imm : BitVec 12) (rs1 : Reg) (f3 : BitVec 3) (rd : Reg) (op : BitVec 7) :
    layoutI imm rs1 f3 rd op &&& 0x0000707f#32 = layoutI 0#12 0#5 f3 0#5 op := by
  have hmask : 0x0000707f#32 = layoutI 0#12 0#5 (BitVec.allOnes 3) 0#5 (BitVec.allOnes 7) := by decide
  rw [hmask, layoutI, layoutI]
  iterate 4 rw [BitVec.and_append]
  simp only [BitVec.and_allOnes, BitVec.and_zero, layoutI]

theorem iType_layoutI (build : Reg → Reg → BitVec 12 → Instr) (imm : BitVec 12) (rs1 : Reg) (f3 : BitVec 3) (rd : Reg)
    (op : BitVec 7) : iType build (layoutI imm rs1 f3 rd op) = build rd rs1 imm := by
  have hrd : fieldRd (layoutI imm rs1 f3 rd op) = rd := by
    rw [fieldRd, layoutI, BitVec.extractLsb'_append_eq_of_le (by decide)]
    exact BitVec.extractLsb'_append_eq_right
  have hrs1 : fieldRs1 (layoutI imm rs1 f3 rd op) = rs1 := by
    rw [fieldRs1, layoutI]
    iterate 3 rw [BitVec.extractLsb'_append_eq_of_le (by decide)]
    exact BitVec.extractLsb'_append_eq_right
  have himm : fieldImmI (layoutI imm rs1 f3 rd op) = imm := by
    rw [fieldImmI, layoutI]
    iterate 3 rw [BitVec.extractLsb'_append_eq_of_le (by decide)]
    exact BitVec.extractLsb'_append_eq_left
  rw [iType, hrd, hrs1, himm]

/-- Every word of an I-format row encodes the instruction of its fields. -/
theorem encodes_layoutI {name : String} {pattern : InstWord} {build : Reg → Reg → BitVec 12 → Instr} {rd rs1 : Reg}
    {imm : BitVec 12} {f3 : BitVec 3} {op : BitVec 7} (hrow : ⟨name, pattern, 0x0000707f#32, iType build⟩ ∈ opcodeTable)
    (hpattern : pattern = layoutI 0#12 0#5 f3 0#5 op) (henc : encode (build rd rs1 imm) = encIType pattern rd rs1 imm) :
    Encodes (layoutI imm rs1 f3 rd op) (build rd rs1 imm) :=
  encodes_of_row hrow (by rw [henc, hpattern, encIType_layoutI]) (by rw [layoutI_and_mask, hpattern])
    (iType_layoutI build imm rs1 f3 rd op)

/-! ### The S format (R94, R100) -/

theorem layoutS_eq_place (offset : BitVec 12) (rs2 rs1 : Reg) (f3 : BitVec 3) (op : BitVec 7) :
    layoutS offset rs2 rs1 f3 op =
      place (offset.extractLsb' 5 7) 25 ||| place rs2 20 ||| place rs1 15 ||| place f3 12 |||
        place (offset.extractLsb' 0 5) 7 ||| place op 0 := by
  rw [← place_zero (layoutS offset rs2 rs1 f3 op), layoutS, place_append, place_append, place_append, place_append,
    place_append]

theorem encSType_layoutS (offset : BitVec 12) (rs2 rs1 : Reg) (f3 : BitVec 3) (op : BitVec 7) :
    encSType (layoutS 0#12 0#5 0#5 f3 op) rs2 rs1 offset = layoutS offset rs2 rs1 f3 op := by
  simp only [encSType, layoutS_eq_place, BitVec.extractLsb'_zero, place_of_zero]
  generalize place (offset.extractLsb' 5 7) 25 = a, place rs2 20 = b, place rs1 15 = c, place f3 12 = d,
    place (offset.extractLsb' 0 5) 7 = e, place op 0 = f
  simp only [BitVec.zero_or, BitVec.or_zero]
  ac_rfl

theorem layoutS_and_mask (offset : BitVec 12) (rs2 rs1 : Reg) (f3 : BitVec 3) (op : BitVec 7) :
    layoutS offset rs2 rs1 f3 op &&& 0x0000707f#32 = layoutS 0#12 0#5 0#5 f3 op := by
  have hmask : 0x0000707f#32 = layoutS 0#12 0#5 0#5 (BitVec.allOnes 3) (BitVec.allOnes 7) := by decide
  rw [hmask, layoutS, layoutS]
  iterate 5 rw [BitVec.and_append]
  simp only [BitVec.and_allOnes, BitVec.and_zero, BitVec.extractLsb'_zero, layoutS]

theorem sType_layoutS (build : Reg → Reg → BitVec 12 → Instr) (offset : BitVec 12) (rs2 rs1 : Reg) (f3 : BitVec 3)
    (op : BitVec 7) : sType build (layoutS offset rs2 rs1 f3 op) = build rs2 rs1 offset := by
  have hrs1 : fieldRs1 (layoutS offset rs2 rs1 f3 op) = rs1 := by
    rw [fieldRs1, layoutS]
    iterate 3 rw [BitVec.extractLsb'_append_eq_of_le (by decide)]
    exact BitVec.extractLsb'_append_eq_right
  have hrs2 : fieldRs2 (layoutS offset rs2 rs1 f3 op) = rs2 := by
    rw [fieldRs2, layoutS]
    iterate 4 rw [BitVec.extractLsb'_append_eq_of_le (by decide)]
    exact BitVec.extractLsb'_append_eq_right
  have hlow : (layoutS offset rs2 rs1 f3 op).extractLsb' 7 5 = offset.extractLsb' 0 5 := by
    rw [layoutS, BitVec.extractLsb'_append_eq_of_le (by decide)]
    exact BitVec.extractLsb'_append_eq_right
  have hhigh : (layoutS offset rs2 rs1 f3 op).extractLsb' 25 7 = offset.extractLsb' 5 7 := by
    rw [layoutS]
    iterate 4 rw [BitVec.extractLsb'_append_eq_of_le (by decide)]
    exact BitVec.extractLsb'_append_eq_left
  have himm : fieldImmS (layoutS offset rs2 rs1 f3 op) = offset := by
    rw [fieldImmS, hhigh, hlow]
    exact BitVec.extractLsb'_append_extractLsb'
  rw [sType, hrs2, hrs1, himm]

/-- Every word of an S-format row encodes the instruction of its fields. -/
theorem encodes_layoutS {name : String} {pattern : InstWord} {build : Reg → Reg → BitVec 12 → Instr} {rs2 rs1 : Reg}
    {offset : BitVec 12} {f3 : BitVec 3} {op : BitVec 7}
    (hrow : ⟨name, pattern, 0x0000707f#32, sType build⟩ ∈ opcodeTable) (hpattern : pattern = layoutS 0#12 0#5 0#5 f3 op)
    (henc : encode (build rs2 rs1 offset) = encSType pattern rs2 rs1 offset) :
    Encodes (layoutS offset rs2 rs1 f3 op) (build rs2 rs1 offset) :=
  encodes_of_row hrow (by rw [henc, hpattern, encSType_layoutS]) (by rw [layoutS_and_mask, hpattern])
    (sType_layoutS build offset rs2 rs1 f3 op)

/-! ### FENCE (R105) -/

theorem layoutFence_eq_place (pred succ : BitVec 4) :
    layoutFence pred succ = place 0#4 28 ||| place pred 24 ||| place succ 20 ||| place 0x0000f#20 0 := by
  rw [← place_zero (layoutFence pred succ), layoutFence, place_append, place_append, place_append]

theorem encodes_layoutFence (pred succ : BitVec 4) : Encodes (layoutFence pred succ) (.fence pred succ) := by
  have hrow : ⟨"fence", 0x0000000f#32, 0xf00fffff#32, fenceType .fence⟩ ∈ opcodeTable := by
    simp [opcodeTable, fenceRows]
  refine encodes_of_row hrow ?_ ?_ ?_
  · have hpattern : 0x0000000f#32 = place 0x0000f#20 0 := by decide
    rw [layoutFence_eq_place, place_of_zero, encode, encFenceType, hpattern]
    generalize place pred 24 = a, place succ 20 = b, place 0x0000f#20 0 = c
    simp only [BitVec.zero_or]
    ac_rfl
  · have hmask : 0xf00fffff#32 = BitVec.allOnes 4 ++ 0#4 ++ 0#4 ++ BitVec.allOnes 20 := by decide
    show layoutFence pred succ &&& 0xf00fffff#32 = 0x0000000f#32
    rw [hmask, layoutFence]
    iterate 3 rw [BitVec.and_append]
    rw [BitVec.and_zero, BitVec.and_zero]
    decide
  · have hpred : fieldPred (layoutFence pred succ) = pred := by
      rw [fieldPred, layoutFence]
      iterate 2 rw [BitVec.extractLsb'_append_eq_of_le (by decide)]
      exact BitVec.extractLsb'_append_eq_right
    have hsucc : fieldSucc (layoutFence pred succ) = succ := by
      rw [fieldSucc, layoutFence, BitVec.extractLsb'_append_eq_of_le (by decide)]
      exact BitVec.extractLsb'_append_eq_right
    show fenceType .fence (layoutFence pred succ) = .fence pred succ
    rw [fenceType, hpred, hsucc]

end Sys2Proof.Machine
end

section
/-! SUPPORT. Raising an exception does what the rules of traps say (`spec/60_exceptions.md` R310, R311, R335, R340, R341). -/

namespace Sys2Proof.Machine

/-! ## The registers of a trap -/

theorem clearLow2_eq_roundDown4 (v : Word) : clearLow2 v = roundDown4 v := by
  have hshift : roundDown4 v = v >>> 2 <<< 2 := by
    apply BitVec.eq_of_toNat_eq
    simp [roundDown4, Nat.shiftLeft_eq, Nat.shiftRight_eq_div_pow]
  have hmask : ∀ i, i < 64 → (~~~3#64).getLsbD i = !decide (i < 2) := by decide
  rw [hshift]
  refine BitVec.eq_of_getLsbD_eq fun i hi => ?_
  rw [clearLow2, BitVec.getLsbD_and, hmask i hi, BitVec.getLsbD_shiftLeft, BitVec.getLsbD_ushiftRight]
  by_cases h : i < 2
  · simp [h]
  · simp [h, hi, show 2 + (i - 2) = i by omega]

/-- The cause register's value for every code that leaves bit 63 free (R335). -/
theorem causeWord_eq_causeValue (interrupt : Bool) {c : Nat} (hc : c < 2 ^ 63) :
    causeWord interrupt c = causeValue interrupt c := by
  have hor : ∀ a : Nat, a <<< 63 ||| c = 2 ^ 63 * a + c := fun a => by
    rw [Nat.shiftLeft_eq, Nat.mul_comm, Nat.two_pow_add_eq_or_of_lt hc]
  apply BitVec.eq_of_toNat_eq
  rw [causeWord, causeValue, BitVec.toNat_append, BitVec.toNat_ofNat, BitVec.toNat_ofNat, Nat.mod_eq_of_lt hc, hor]
  cases interrupt <;> simp <;> omega

theorem trapTarget_eq_vectorAddress (tvec : Word) (interrupt : Bool) (c : Nat) :
    trapTarget tvec interrupt c = vectorAddress tvec interrupt c := by
  have hmode : (tvec.extractLsb' 0 2 == 0#2) = decide (tvec.toNat % 4 = 0) := by
    rw [Bool.eq_iff_iff, decide_eq_true_eq]
    exact aligned4_iff tvec
  unfold trapTarget vectorAddress
  rw [hmode, clearLow2_eq_roundDown4]
  cases interrupt <;> by_cases h : tvec.toNat % 4 = 0 <;> simp [h]

/-- Trap entry does what R341 says, register by register. -/
theorem State.entersTrap_takeTrap (s : State) (interrupt : Bool) {c : Nat} (hc : c < 2 ^ 63) (tval epc : Word)
    (y : Mode) : EntersTrap s (s.takeTrap interrupt c tval epc y) interrupt c tval epc y := by
  refine ⟨rfl, ?_, State.readX_congr rfl, ⟨State.readByte_congr rfl, rfl⟩, rfl, rfl, rfl⟩
  cases y <;>
    exact ⟨by rw [← clearLow2_eq_roundDown4, ← causeWord_eq_causeValue _ hc]; rfl, trapTarget_eq_vectorAddress ..⟩

/-! ## The handler of an exception -/

theorem inMedeleg_iff (s : State) (c : Nat) : InMedeleg s c ↔ s.medelegOrZero.getLsbD c = true := by
  unfold InMedeleg delegated State.medelegOrZero
  split <;> simp [*]

theorem inSedeleg_iff (s : State) (c : Nat) : InSedeleg s c ↔ s.sedelegOrZero.getLsbD c = true := by
  unfold InSedeleg delegated State.sedelegOrZero
  split <;> simp [*]

/-- The handler the model chooses for an exception is the one R340's clauses name. -/
theorem State.handlesException_exceptionHandler (s : State) (c : Nat) :
    HandlesException s c (s.exceptionHandler c) where
  fromMachine hp := by simp [State.exceptionHandler, hp]
  notDelegated hd := by simp [State.exceptionHandler, (inMedeleg_iff s c).not.1 hd]
  fromSupervisor hp hd hs := by simp [State.exceptionHandler, hp, (inMedeleg_iff s c).1 hd, hs]
  fromUserToUser hp hd hs hn := by
    simp [State.exceptionHandler, hp, (inMedeleg_iff s c).1 hd, hs, hn.1, (inSedeleg_iff s c).1 hn.2]
  fromUserToSupervisor hp hd hs hn := by
    rw [inSedeleg_iff] at hn
    simpa [State.exceptionHandler, hp, (inMedeleg_iff s c).1 hd, hs] using hn
  withoutSupervisor hp hd hs := by simp [State.exceptionHandler, hp, (inMedeleg_iff s c).1 hd, hs]

/-! ## Raising -/

theorem Exc.code_lt (e : Exc) : e.code < 2 ^ 63 := by cases e <;> decide

/-- `raise` is what the rules call raising: the trap record under `terminal`, trap entry under `privileged`. -/
theorem State.raises_raise (s : State) (e : Exc) (info : Word) : Raises (s.raise e info) s e info := by
  constructor <;> intro h
  · simp [State.raise, h]
  · exact ⟨_, _, by simp only [State.raise, h], s.handlesException_exceptionHandler e.code,
      s.entersTrap_takeTrap false e.code_lt info s.pc _⟩

end Sys2Proof.Machine
end

section
/-!
SUPPORT. Memory accesses (`spec/20_memory.md`): the checks and their order, little-endian values, what a store does to each byte,
the rules of loads and stores, fetching, and the canonical form of memory.
-/

namespace Sys2Proof.Machine

/-! ## The checks of an access (R52, R54, R58, R61, R63) -/

theorem vacantFor_iff (s : State) (k : Access) (a : Word) : vacantFor s.cfg k a = true ↔ VacantByte s k a := by
  unfold vacantFor VacantByte
  cases regionAt s.cfg a <;> simp

theorem isDevice_iff (s : State) (a : Word) : isDevice s.cfg a = true ↔ DeviceByte s a := by
  unfold isDevice DeviceByte
  cases regionAt s.cfg a <;> simp

theorem MainByte.not_vacantByte {s : State} {k : Access} {a : Word} (h : MainByte s k a) : ¬ VacantByte s k a := by
  obtain ⟨r, hr, hp, -⟩ := h
  intro hv
  simp [hv r hr] at hp

theorem MainByte.not_deviceByte {s : State} {k : Access} {a : Word} (h : MainByte s k a) : ¬ DeviceByte s a := by
  obtain ⟨r, hr, -, hk⟩ := h
  rintro ⟨q, hq, hd⟩
  obtain rfl : r = q := Option.some.inj (hr.symm.trans hq)
  simp [hk] at hd

theorem any_accessBytes (a : Word) (n : Nat) (p : Word → Bool) :
    (accessBytes a n).any p = true ↔ ∃ j, j < n ∧ p (byteAddr a j) = true := by
  simp [accessBytes, byteAddr]

theorem any_vacantFor (s : State) (k : Access) (a : Word) (n : Nat) :
    (accessBytes a n).any (vacantFor s.cfg k) = true ↔ ∃ j, j < n ∧ VacantByte s k (byteAddr a j) := by
  simp only [any_accessBytes, vacantFor_iff]

theorem any_isDevice (s : State) (a : Word) (n : Nat) :
    (accessBytes a n).any (isDevice s.cfg) = true ↔ ∃ j, j < n ∧ DeviceByte s (byteAddr a j) := by
  simp only [any_accessBytes, isDevice_iff]

theorem misalignedTraps_iff (s : State) (a : Word) (w : Width) :
    (s.cfg.misaligned == .trap && !naturallyAligned a w) = true ↔ ¬ AlignmentPasses s a w.bytes := by
  unfold AlignmentPasses naturallyAligned
  cases s.cfg.misaligned <;> simp

theorem State.checkAccess_misaligned {s : State} {k : Access} {a : Word} {w : Width}
    (h : ¬ AlignmentPasses s a w.bytes) : s.checkAccess k a w = .misaligned :=
  if_pos ((misalignedTraps_iff s a w).2 h)

theorem State.checkAccess_vacant {s : State} {k : Access} {a : Word} {w : Width} (ha : AlignmentPasses s a w.bytes)
    (hv : ∃ j, j < w.bytes ∧ VacantByte s k (byteAddr a j)) : s.checkAccess k a w = .vacant := by
  unfold State.checkAccess
  rw [if_neg ((misalignedTraps_iff s a w).not.2 (not_not.2 ha)), if_pos ((any_vacantFor s k a _).2 hv)]

theorem State.checkAccess_device {s : State} {k : Access} {a : Word} {w : Width} (ha : AlignmentPasses s a w.bytes)
    (hv : ∀ j, j < w.bytes → ¬ VacantByte s k (byteAddr a j)) (hd : ∃ j, j < w.bytes ∧ DeviceByte s (byteAddr a j)) :
    s.checkAccess k a w = .device := by
  unfold State.checkAccess
  rw [if_neg ((misalignedTraps_iff s a w).not.2 (not_not.2 ha)),
    if_neg ((any_vacantFor s k a _).not.2 fun ⟨j, hj, h⟩ => hv j hj h), if_pos ((any_isDevice s a _).2 hd)]

theorem State.checkAccess_granted {s : State} {k : Access} {a : Word} {w : Width} (h : AccessGranted s k a w.bytes) :
    s.checkAccess k a w = .granted := by
  obtain ⟨ha, hm⟩ := h
  unfold State.checkAccess
  rw [if_neg ((misalignedTraps_iff s a w).not.2 (not_not.2 ha)),
    if_neg ((any_vacantFor s k a _).not.2 fun ⟨j, hj, h⟩ => (hm j hj).not_vacantByte h),
    if_neg ((any_isDevice s a _).not.2 fun ⟨j, hj, h⟩ => (hm j hj).not_deviceByte h)]

theorem not_alignmentPasses {s : State} {a : Word} {n : Nat} (ht : s.cfg.misaligned = .trap) (h : a.toNat % n ≠ 0) :
    ¬ AlignmentPasses s a n := by
  rintro (hs | hn)
  · cases ht.symm.trans hs
  · exact h hn

/-! ## Byte addresses and little-endian values (R50, R56) -/

@[simp] theorem byteAddr_zero (a : Word) : byteAddr a 0 = a := by simp [byteAddr]

theorem byteAddr_byteAddr (a : Word) (i j : Nat) : byteAddr (byteAddr a i) j = byteAddr a (i + j) := by
  simp only [byteAddr, BitVec.ofNat_add, BitVec.add_assoc]

/-- Addresses less than 2^64 apart differ. -/
theorem byteAddr_ne_self (a : Word) {j : Nat} (hj : 0 < j) (hlt : j < 2 ^ 64) : a ≠ byteAddr a j := by
  intro h
  have hzero := congrArg BitVec.toNat (left_eq_add.1 h)
  rw [BitVec.toNat_ofNat, Nat.mod_eq_of_lt hlt] at hzero
  exact hj.ne' hzero

theorem littleEndianValue_succ (s : State) (a : Word) (n : Nat) :
    littleEndianValue s a (n + 1) = (s.readByte a).toNat + 256 * littleEndianValue s (byteAddr a 1) n := by
  unfold littleEndianValue
  rw [Finset.sum_range_succ', Finset.mul_sum, add_comm]
  congr 1
  · simp
  · refine Finset.sum_congr rfl fun j _ => ?_
    rw [byteAddr_byteAddr, Nat.add_comm 1 j]
    ring

theorem littleEndianValue_lt (s : State) (a : Word) (n : Nat) : littleEndianValue s a n < 2 ^ (8 * n) := by
  induction n generalizing a with
  | zero => simp [littleEndianValue]
  | succ n ih =>
    have hrest := ih (byteAddr a 1)
    have hbyte := (s.readByte a).isLt
    rw [littleEndianValue_succ, show 2 ^ (8 * (n + 1)) = 256 * 2 ^ (8 * n) by ring]
    omega

/-- The bytes a load reads are the little-endian value of the rules. -/
theorem State.readBytes_toNat (s : State) (a : Word) {n : Nat} (hn : n ≤ 8) :
    (s.readBytes a n).toNat = littleEndianValue s a n := by
  induction n generalizing a with
  | zero => simp [State.readBytes, littleEndianValue]
  | succ n ih =>
    have hbyte := (s.readByte a).isLt
    have hrest := littleEndianValue_lt s (byteAddr a 1) n
    have hfits : 256 * littleEndianValue s (byteAddr a 1) n < 2 ^ 64 := by
      have : 2 ^ (8 * n) ≤ 2 ^ 56 := Nat.pow_le_pow_right two_pos (by omega)
      omega
    rw [littleEndianValue_succ, State.readBytes, BitVec.toNat_or, BitVec.toNat_shiftLeft,
      show a + 1 = byteAddr a 1 from rfl, ih _ (by omega), Nat.shiftLeft_eq, Nat.mul_comm _ (2 ^ 8),
      Nat.mod_eq_of_lt hfits, BitVec.toNat_setWidth, Nat.mod_eq_of_lt (by omega), Nat.or_comm,
      ← Nat.two_pow_add_eq_or_of_lt hbyte, Nat.add_comm]

/-- Bytes that hold the bytes of `v` from its byte `i` up have the value of those bits of `v` (R57). -/
theorem littleEndianValue_of_bytes {s : State} {a v : Word} {i n : Nat}
    (h : ∀ j, j < n → s.readByte (byteAddr a (i + j)) = v.extractLsb' (8 * (i + j)) 8) :
    littleEndianValue s (byteAddr a i) n = v.toNat / 2 ^ (8 * i) % 2 ^ (8 * n) := by
  induction n with
  | zero => simp [littleEndianValue, Nat.mod_one]
  | succ n ih =>
    have hpow : ∀ k, 2 ^ (8 * k) = 256 ^ k := fun k => pow_mul 2 8 k
    have hbyte : (s.readByte (byteAddr a (i + n))).toNat = v.toNat / 2 ^ (8 * i) / 256 ^ n % 256 := by
      rw [h n (by omega), BitVec.extractLsb'_toNat, Nat.shiftRight_eq_div_pow, Nat.div_div_eq_div_mul, Nat.mul_add,
        pow_add, hpow n]
    rw [littleEndianValue, Finset.sum_range_succ, ← littleEndianValue, ih fun j hj => h j (by omega),
      byteAddr_byteAddr, hbyte, hpow n, hpow (n + 1), Nat.mod_pow_succ, Nat.mul_comm (256 ^ n)]

/-! ## The results of the loads and the effective address (R51, R53) -/

theorem widenUnsigned_eq (v : Word) : widenUnsigned v = wrap64 v.toNat := by
  simp [widenUnsigned, wrap64]

theorem widenSigned_eq (n : Nat) (v : Word) : widenSigned n v = signedLow n v.toNat := by
  unfold widenSigned signedLow sext64
  rw [BitVec.signExtend, BitVec.toInt_setWidth]

/-- The sum of words is the word of the integer sum (R51). -/
theorem effectiveAddress_eq (base : Word) (offset : BitVec 12) :
    effectiveAddress base offset = wrap64 (base.toNat + offset.toInt) := by
  rw [wrap64, BitVec.ofInt_add, BitVec.ofInt_natCast, BitVec.ofNat_toNat, BitVec.setWidth_eq]
  rfl

/-! ## Loads -/

/-- An instruction whose one effect is a result in `rd`. -/
theorem completesWith_of_exec {i : Instr} {s : State} {rd : Reg} {v : Word} (h : exec i s = s.writeAndAdvance rd v) :
    CompletesWith i s rd v := by
  have hmem : SameMemory s (s.writeX rd v).advance := ⟨State.readByte_congr (by simp), by simp⟩
  have hcontrol : SameControl s (s.writeX rd v).advance := ⟨by simp, by simp, by simp, by simp, by simp⟩
  exact ⟨_, h, writesRegister_writeX s rd v _, by simp, hmem, hcontrol⟩

/-- An instruction that is a load of the width `w` follows the rule of R54, where `f` widens as `signed` says. -/
theorem loadRule_of_exec {i : Instr} {w : Width} {f : Word → Word} {signed : Bool} {rd rs1 : Reg} {offset : BitVec 12}
    (hexec : ∀ s, exec i s = s.load w f rd rs1 offset)
    (hf : ∀ v, f v = if signed then signedLow (8 * w.bytes) v.toNat else wrap64 v.toNat) :
    LoadRule i w.bytes signed rd rs1 offset where
  completes s h := by
    have hw : w.bytes ≤ 8 := by cases w <;> decide
    rw [← State.readBytes_toNat s _ hw, ← hf]
    refine completesWith_of_exec ?_
    simp only [hexec, State.load, State.checkAccess_granted h]
  misaligned s ht h := by
    simp only [hexec, State.load, State.checkAccess_misaligned (not_alignmentPasses ht h)]
    exact State.raises_raise ..
  vacant s ha hv := by
    simp only [hexec, State.load, State.checkAccess_vacant ha hv]
    exact State.raises_raise ..

/-! ## What a store does to one byte (R55, R66) -/

/-- The byte at `c`, the contents it has held and whether it is in S are as before. -/
structure ByteUnchanged (s t : State) (c : Word) : Prop where
  byte : t.readByte c = s.readByte c
  held : t.heldContents c = s.heldContents c
  inSet : t.inStored c = s.inStored c

/-- The byte at `c` is now `b`, which joins the contents it has held, and it is in S. -/
structure ByteStored (s t : State) (c : Word) (b : Byte) : Prop where
  byte : t.readByte c = b
  held : t.heldContents c = b :: s.heldContents c
  inSet : t.inStored c = true

theorem ByteUnchanged.trans {s t u : State} {c : Word} (h : ByteUnchanged s t c) (h' : ByteUnchanged t u c) :
    ByteUnchanged s u c :=
  ⟨h'.byte.trans h.byte, h'.held.trans h.held, h'.inSet.trans h.inSet⟩

theorem ByteUnchanged.then_stored {s t u : State} {c : Word} {b : Byte} (h : ByteUnchanged s t c)
    (h' : ByteStored t u c b) : ByteStored s u c b :=
  ⟨h'.byte, h.held ▸ h'.held, h'.inSet⟩

theorem ByteStored.then_unchanged {s t u : State} {c : Word} {b : Byte} (h : ByteStored s t c b)
    (h' : ByteUnchanged t u c) : ByteStored s u c b :=
  ⟨h'.byte.trans h.byte, h'.held.trans h.held, h'.inSet.trans h.inSet⟩

theorem State.byteUnchanged_writeByte (s : State) {a c : Word} (b : Byte) (h : c ≠ a) :
    ByteUnchanged s (s.writeByte a b) c := by
  have hne : a.toNat ≠ c.toNat := fun he => h (BitVec.eq_of_toNat_eq he).symm
  have hread := s.readByte_writeByte_other b h
  exact ⟨hread, by simp [State.heldContents, hread, hne], by simp [State.inStored, hne]⟩

theorem State.byteStored_writeByte (s : State) (a : Word) (b : Byte) : ByteStored s (s.writeByte a b) a b := by
  refine ⟨s.readByte_writeByte_same a b, ?_, by simp [State.inStored]⟩
  rw [State.heldContents, State.readByte_writeByte_same, State.writeByte_stored, List.filter_cons_of_pos (by simp)]
  rfl

/-- The first byte of a store lies below the others, which are those of a store one address up. -/
theorem State.writeBytes_succ (s : State) (a v : Word) (n : Nat) :
    s.writeBytes a v (n + 1) = (s.writeByte a (v.setWidth 8)).writeBytes (byteAddr a 1) (v >>> 8) n := rfl

/-- A store leaves every byte outside its own alone. -/
theorem State.byteUnchanged_writeBytes (s : State) (a v : Word) {n : Nat} {c : Word}
    (h : ∀ j, j < n → c ≠ byteAddr a j) : ByteUnchanged s (s.writeBytes a v n) c := by
  induction n generalizing s a v with
  | zero => exact ⟨rfl, rfl, rfl⟩
  | succ n ih =>
    have hfirst : c ≠ a := by simpa using h 0 n.succ_pos
    rw [State.writeBytes_succ]
    refine (s.byteUnchanged_writeByte _ hfirst).trans (ih _ _ _ fun j hj => ?_)
    rw [byteAddr_byteAddr, Nat.add_comm]
    exact h (j + 1) (Nat.succ_lt_succ hj)

/-- A store of `n` bytes, no more than there are addresses, stores byte `j` of the value at its address `j`. -/
theorem State.byteStored_writeBytes (s : State) (a v : Word) {n j : Nat} (hn : n ≤ 2 ^ 64) (hj : j < n) :
    ByteStored s (s.writeBytes a v n) (byteAddr a j) (v.extractLsb' (8 * j) 8) := by
  induction n generalizing s a v j with
  | zero => cases hj
  | succ n ih =>
    rw [State.writeBytes_succ]
    cases j with
    | zero =>
      rw [byteAddr_zero, Nat.mul_zero, ← BitVec.setWidth_eq_extractLsb' (by decide)]
      refine (s.byteStored_writeByte a _).then_unchanged (State.byteUnchanged_writeBytes _ _ _ fun j hj => ?_)
      rw [byteAddr_byteAddr]
      exact byteAddr_ne_self a (by omega) (by omega)
    | succ j =>
      have hvalue : v.extractLsb' (8 * (j + 1)) 8 = (v >>> 8).extractLsb' (8 * j) 8 := by
        apply BitVec.eq_of_toNat_eq
        simp [← Nat.shiftRight_add, Nat.mul_add, Nat.add_comm]
      have haddr : byteAddr a (j + 1) = byteAddr (byteAddr a 1) j := by rw [byteAddr_byteAddr, Nat.add_comm]
      have hother : byteAddr a (j + 1) ≠ a := (byteAddr_ne_self a j.succ_pos (by omega)).symm
      rw [hvalue]
      refine (s.byteUnchanged_writeByte (v.setWidth 8) hother).then_stored ?_
      rw [haddr]
      exact ih _ _ _ (by omega) (by omega)

/-! ## Stores -/

/-- A store of a data access's width does what R55 says. -/
theorem State.storeEffect_writeBytes (s : State) (ea v : Word) {n : Nat} (hn : n ≤ 2 ^ 64) :
    StoreEffect s (s.writeBytes ea v n).advance ea v n := by
  have hout : ∀ a, (∀ j, j < n → a ≠ byteAddr ea j) → ByteUnchanged s (s.writeBytes ea v n) a :=
    fun a ha => s.byteUnchanged_writeBytes ea v ha
  have hin : ∀ j, j < n → ByteStored s (s.writeBytes ea v n) (byteAddr ea j) (v.extractLsb' (8 * j) 8) :=
    fun j hj => s.byteStored_writeBytes ea v hn hj
  refine ⟨fun j hj => (hin j hj).byte, fun a ha => ⟨(hout a ha).byte, (hout a ha).held, (hout a ha).inSet⟩,
    fun j hj => ⟨(hin j hj).inSet, (hin j hj).byte ▸ (hin j hj).held⟩, State.readX_congr (by simp), ?_, by simp⟩
  exact ⟨by simp, by simp, by simp, by simp, by simp⟩

/-- An instruction that is a store of the width `w` follows the rule of R55. -/
theorem storeRule_of_exec {i : Instr} {w : Width} {rs2 rs1 : Reg} {offset : BitVec 12}
    (hexec : ∀ s, exec i s = s.store w rs2 rs1 offset) : StoreRule i w.bytes rs2 rs1 offset where
  completes s h := by
    have hw : w.bytes ≤ 2 ^ 64 := by cases w <;> decide
    refine ⟨_, ?_, s.storeEffect_writeBytes _ _ hw⟩
    simp only [hexec, State.store, State.checkAccess_granted h]
  misaligned s ht h := by
    simp only [hexec, State.store, State.checkAccess_misaligned (not_alignmentPasses ht h)]
    exact State.raises_raise ..
  vacant s ha hv := by
    simp only [hexec, State.store, State.checkAccess_vacant ha hv]
    exact State.raises_raise ..

/-! ## The seven loads and the four stores -/

/-- An instruction with a data access is a load or a store of that access. -/
theorem exec_of_dataAccess {i : Instr} {k : Access} {n : Nat} {rs1 : Reg} {offset : BitVec 12}
    (h : dataAccess i = some (k, n, rs1, offset)) :
    ∃ w : Width, w.bytes = n ∧
      ((k = .read ∧ ∃ f rd, ∀ s, exec i s = s.load w f rd rs1 offset) ∨
        (k = .write ∧ ∃ rs2, ∀ s, exec i s = s.store w rs2 rs1 offset)) := by
  cases i <;> cases h
  case lb | lbu => exact ⟨.byte, rfl, .inl ⟨rfl, _, _, fun _ => rfl⟩⟩
  case lh | lhu => exact ⟨.half, rfl, .inl ⟨rfl, _, _, fun _ => rfl⟩⟩
  case lw | lwu => exact ⟨.word, rfl, .inl ⟨rfl, _, _, fun _ => rfl⟩⟩
  case ld => exact ⟨.double, rfl, .inl ⟨rfl, _, _, fun _ => rfl⟩⟩
  case sb => exact ⟨.byte, rfl, .inr ⟨rfl, _, fun _ => rfl⟩⟩
  case sh => exact ⟨.half, rfl, .inr ⟨rfl, _, fun _ => rfl⟩⟩
  case sw => exact ⟨.word, rfl, .inr ⟨rfl, _, fun _ => rfl⟩⟩
  case sd => exact ⟨.double, rfl, .inr ⟨rfl, _, fun _ => rfl⟩⟩

/-- A data access with a byte in a device region is refused once its alignment and its permissions pass (R61, R63). -/
theorem exec_device {i : Instr} {s : State} {k : Access} {n : Nat} {rs1 : Reg} {offset : BitVec 12}
    (h : dataAccess i = some (k, n, rs1, offset)) (ha : AlignmentPasses s (effectiveAddress (s.readX rs1) offset) n)
    (hv : ∀ j, j < n → ¬ VacantByte s k (byteAddr (effectiveAddress (s.readX rs1) offset) j))
    (hd : ∃ j, j < n ∧ DeviceByte s (byteAddr (effectiveAddress (s.readX rs1) offset) j)) :
    exec i s = .refused (.deviceAccess (effectiveAddress (s.readX rs1) offset)) := by
  obtain ⟨w, rfl, ⟨rfl, f, rd, hexec⟩ | ⟨rfl, rs2, hexec⟩⟩ := exec_of_dataAccess h
  · simp only [hexec, State.load, State.checkAccess_device ha hv hd]
  · simp only [hexec, State.store, State.checkAccess_device ha hv hd]

/-! ## Fetching (R64 to R66, R367) -/

theorem State.selectIrq_eq_none {s : State} (h : NoneTakeable s) : s.selectIrq = none := by
  by_contra hne
  obtain ⟨c, hc⟩ := Option.ne_none_iff_exists'.1 hne
  obtain ⟨hp, ht, -⟩ := State.selectIrq_handler hc
  exact h c _ ((takeable_iff s c _).2 ⟨hp, rfl, ht⟩)

/-- A step with no WFI in progress and no interrupt takeable fetches. -/
theorem step_fetches {s : State} (hs : s.samplePlatform.stalled = false) (hn : NoneTakeable s.samplePlatform) :
    step s = s.samplePlatform.fetchAndRun := by
  simp only [step, State.cycle, hs, State.selectIrq_eq_none hn, Bool.false_eq_true, if_false]

theorem State.fetch_vacant {s : State} (h : ∃ j, j < 4 ∧ VacantByte s .execute (byteAddr s.pc j)) :
    s.fetch = .vacant :=
  if_pos ((any_vacantFor s .execute s.pc 4).2 h)

theorem State.fetch_device {s : State} (hv : ∀ j, j < 4 → ¬ VacantByte s .execute (byteAddr s.pc j))
    (hd : ∃ j, j < 4 ∧ DeviceByte s (byteAddr s.pc j)) : s.fetch = .device := by
  unfold State.fetch
  rw [if_neg ((any_vacantFor s .execute s.pc 4).not.2 fun ⟨j, hj, h⟩ => hv j hj h),
    if_pos ((any_isDevice s s.pc 4).2 hd)]

theorem State.readByte_mem_heldContents (s : State) (a : Word) : s.readByte a ∈ s.heldContents a :=
  List.mem_cons_self

/-- The free index picks one of the contents a byte in S has held: it is reduced to their number. -/
theorem State.fetchByte_mem_heldContents {s : State} {a : Word} (h : s.inStored a = true) :
    s.fetchByte a ∈ s.heldContents a := by
  have hindex : Config.freeStaleIndex s.draws a.toNat % (s.heldContents a).length < (s.heldContents a).length :=
    Nat.mod_lt _ (List.length_pos_of_mem (s.readByte_mem_heldContents a))
  rw [State.fetchByte, if_pos h]
  simp only [List.getD_eq_getElem _ _ hindex]
  exact List.getElem_mem hindex

theorem State.fetchByte_of_not_inStored {s : State} {a : Word} (h : s.inStored a = false) :
    s.fetchByte a = s.readByte a := by
  simp [State.fetchByte, h]

/-! ## The canonical form of memory -/

theorem Effect.memoryCanonical {i : Instr} {s t : State} (e : Effect i s t) (h : s.memoryCanonical) :
    t.memoryCanonical := by
  unfold State.memoryCanonical at *
  cases e
  case store a v n _ => exact State.wf_writeBytes h a v n
  all_goals simpa using h

/-! ## The statements -/

/-- Settles O54: of the effects only a store's changes memory, byte by byte, and each write keeps the canonical form. -/
theorem memoryStaysCanonical : Obligations.MemoryStaysCanonical := by
  refine ⟨fun s t hs h => ?_, fun s nbits w hs => State.wf_withFetchWord hs nbits w⟩
  refine step_keeps (P := State.memoryCanonical) (fun s hs => ?_) (fun _ hs => hs) (fun _ _ hs _ => hs)
    (fun _ _ _ hs e => e.memoryCanonical hs) hs h
  rwa [State.memoryCanonical, State.samplePlatform_mem]

/-- Settles O27, by `effectiveAddress_eq`: the sign extension is the 64-bit word of the signed offset. -/
theorem effectiveAddressWraps : Obligations.EffectiveAddressWraps := effectiveAddress_eq

/-- Settles O9: the index of the byte fetched is reduced to the number of the contents held. -/
theorem fetchedByteIsACandidate : Obligations.FetchedByteIsACandidate :=
  fun s a => ⟨State.fetchByte_of_not_inStored, State.fetchByte_mem_heldContents, s.readByte_mem_heldContents a⟩

/-- Settles O7: the step fetches, the fetch answers that a byte is vacant, and a raise is what R310 and R341 say. -/
theorem vacantFetchRaises : Obligations.VacantFetchRaises := by
  refine ⟨rfl, fun s hs hn hv => ?_⟩
  rw [step_fetches hs hn, State.fetchAndRun, State.fetch_vacant hv, ← s.samplePlatform_pc]
  exact State.raises_raise ..

/-- Settles O8: the checks of a fetch and of a data access reach the devices last. -/
theorem deviceAccessIsRefused : Obligations.DeviceAccessIsRefused := by
  refine ⟨fun s hs hn hv hd => ?_, fun s i k n rs1 offset h ha hv hd => exec_device h ha hv hd⟩
  rw [step_fetches hs hn, State.fetchAndRun, State.fetch_device hv hd, s.samplePlatform_pc]

/-- Settles O22: FENCE is the advance of `pc`. -/
theorem fenceOnlyAdvances : Obligations.FenceOnlyAdvances := by
  intro s pred succ
  have hsame : SameMemory s s.advance := ⟨State.readByte_congr rfl, rfl⟩
  exact ⟨encodes_layoutFence pred succ, s.advance, rfl, rfl, State.readX_congr rfl, hsame, rfl, rfl, rfl, rfl, rfl⟩

/-- Settles O25: each load is the shared operation at its width, whose result is the value of the bytes read. -/
theorem loadsFollowTheirRules : Obligations.LoadsFollowTheirRules := by
  intro rd rs1 offset
  refine ⟨⟨?_, ?_⟩, ⟨?_, ?_⟩, ⟨?_, ?_⟩, ⟨?_, ?_⟩, ⟨?_, ?_⟩, ⟨?_, ?_⟩, ⟨?_, ?_⟩⟩
  · exact encodes_layoutI (name := "lb") (by simp [opcodeTable, loadStoreRows]) (by decide) rfl
  · exact loadRule_of_exec (w := .byte) (fun _ => rfl) (widenSigned_eq 8)
  · exact encodes_layoutI (name := "lh") (by simp [opcodeTable, loadStoreRows]) (by decide) rfl
  · exact loadRule_of_exec (w := .half) (fun _ => rfl) (widenSigned_eq 16)
  · exact encodes_layoutI (name := "lw") (by simp [opcodeTable, loadStoreRows]) (by decide) rfl
  · exact loadRule_of_exec (w := .word) (fun _ => rfl) (widenSigned_eq 32)
  · exact encodes_layoutI (name := "ld") (by simp [opcodeTable, loadStore64Rows]) (by decide) rfl
  · exact loadRule_of_exec (w := .double) (fun _ => rfl) widenUnsigned_eq
  · exact encodes_layoutI (name := "lbu") (by simp [opcodeTable, loadStoreRows]) (by decide) rfl
  · exact loadRule_of_exec (w := .byte) (fun _ => rfl) widenUnsigned_eq
  · exact encodes_layoutI (name := "lhu") (by simp [opcodeTable, loadStoreRows]) (by decide) rfl
  · exact loadRule_of_exec (w := .half) (fun _ => rfl) widenUnsigned_eq
  · exact encodes_layoutI (name := "lwu") (by simp [opcodeTable, loadStore64Rows]) (by decide) rfl
  · exact loadRule_of_exec (w := .word) (fun _ => rfl) widenUnsigned_eq

/-- Settles O26: each store is the shared operation at its width, which stores the value byte by byte. -/
theorem storesFollowTheirRules : Obligations.StoresFollowTheirRules := by
  intro rs2 rs1 offset
  refine ⟨⟨?_, ?_⟩, ⟨?_, ?_⟩, ⟨?_, ?_⟩, ⟨?_, ?_⟩⟩
  · exact encodes_layoutS (name := "sb") (by simp [opcodeTable, loadStoreRows]) (by decide) rfl
  · exact storeRule_of_exec (w := .byte) fun _ => rfl
  · exact encodes_layoutS (name := "sh") (by simp [opcodeTable, loadStoreRows]) (by decide) rfl
  · exact storeRule_of_exec (w := .half) fun _ => rfl
  · exact encodes_layoutS (name := "sw") (by simp [opcodeTable, loadStoreRows]) (by decide) rfl
  · exact storeRule_of_exec (w := .word) fun _ => rfl
  · exact encodes_layoutS (name := "sd") (by simp [opcodeTable, loadStore64Rows]) (by decide) rfl
  · exact storeRule_of_exec (w := .double) fun _ => rfl

/-- Settles O28: the SD stores the bytes of `v`, and the value of those a narrower load reads is a part of `v`. -/
theorem narrowLoadsSeeAWideStore : Obligations.NarrowLoadsSeeAWideStore := by
  intro s t rs2 rs1 offset hgranted hsd rd rb o
  obtain ⟨-, -, -, -, hstore⟩ := storesFollowTheirRules rs2 rs1 offset
  obtain ⟨-, -, -, -, ⟨-, hlbu⟩, ⟨-, hlhu⟩, -, hlwu⟩ := loadsFollowTheirRules rd rb o
  obtain ⟨t', ht', hbytes, -⟩ := hstore.completes s hgranted
  obtain rfl : t = t' := Host.Outcome.next.inj (hsd.symm.trans ht')
  have hvalue : ∀ i n, i + n ≤ 8 →
      littleEndianValue t (byteAddr (effectiveAddress (s.readX rs1) offset) i) n =
        (s.readX rs2).toNat / 2 ^ (8 * i) % 2 ^ (8 * n) :=
    fun i n hin => littleEndianValue_of_bytes fun j hj => hbytes (i + j) (by omega)
  refine ⟨fun i hi hea hg => ?_, fun j hj hea hg => ?_, fun k hk hea hg => ?_⟩
  · have := hlbu.completes t hg
    rwa [hea, hvalue i 1 (by omega)] at this
  · have := hlhu.completes t hg
    rwa [hea, hvalue (2 * j) 2 (by omega), ← Nat.mul_assoc] at this
  · have := hlwu.completes t hg
    rwa [hea, hvalue (4 * k) 4 (by omega), ← Nat.mul_assoc] at this

end Sys2Proof.Machine
end

section
/-!
SUPPORT. The decoder and the encoder are inverse to each other (`spec/30_encoding.md` R90 to R112, R120). The mask of a
row is what its operand fields leave free: an encoding agrees with the pattern under the mask and holds each operand in
its field, and a word that a row accepts is its pattern with the operands put back. Words that R111 and R112 list meet
no row.
-/

namespace Sys2Proof

open Machine

/-! ## Fields placed in a word -/

theorem place_and {n : Nat} (v : BitVec n) (k : Nat) (m : InstWord) :
    place v k &&& m = place (v &&& m.extractLsb' k n) k := by
  refine BitVec.eq_of_getLsbD_eq fun i hi => ?_
  simp only [place, BitVec.getLsbD_and, BitVec.getLsbD_shiftLeft, BitVec.getLsbD_setWidth, BitVec.getLsbD_extractLsb']
  by_cases hk : i < k
  · simp [hk]
  · by_cases hn : i - k < n
    · simp [hk, hi, hn, show k + (i - k) = i by omega, Bool.and_assoc]
    · simp [BitVec.getLsbD_of_ge v (i - k) (by omega)]

/-- A field put back where it was read is the word's bits there. -/
theorem place_extractLsb' (w : InstWord) (k n : Nat) :
    place (w.extractLsb' k n) k = w &&& place (BitVec.allOnes n) k := by
  rw [BitVec.and_comm, place_and, BitVec.allOnes_and]

/-- A field that stands where the mask has no bit. -/
theorem place_and_of_free {n : Nat} (v : BitVec n) {k : Nat} {m : InstWord} (hm : m.extractLsb' k n = 0#n) :
    place v k &&& m = 0#32 := by
  rw [place_and, hm, BitVec.and_zero, place_of_zero]

@[simp] theorem extractLsb'_place {n k : Nat} (v : BitVec n) (h : k + n ≤ 32) : (place v k).extractLsb' k n = v := by
  refine BitVec.eq_of_getLsbD_eq fun i hi => ?_
  simp [place, hi, show k + i < 32 by omega]

@[simp] theorem extractLsb'_place_of_disjoint {m j : Nat} (v : BitVec m) {k n : Nat} (h : j + m ≤ k ∨ k + n ≤ j) :
    (place v j).extractLsb' k n = 0#n := by
  refine BitVec.eq_of_getLsbD_eq fun i hi => ?_
  simp only [place, BitVec.getLsbD_extractLsb', BitVec.getLsbD_shiftLeft, BitVec.getLsbD_setWidth, BitVec.getLsbD_zero]
  rcases h with h | h
  · simp [BitVec.getLsbD_of_ge v (k + i - j) (by omega)]
  · simp [show k + i < j by omega]

/-- A row's pattern is 0 in its operand fields. -/
theorem extractLsb'_of_masked {p m : InstWord} (hp : p &&& m = p) {k n : Nat} (hm : m.extractLsb' k n = 0#n) :
    p.extractLsb' k n = 0#n := by
  rw [← hp, BitVec.extractLsb'_and, hm, BitVec.and_zero]

theorem and_eq_self_of_allOnes {w m : InstWord} (hm : m = BitVec.allOnes 32) : w &&& m = w := by
  rw [hm, BitVec.and_allOnes]

/-! ## The parts of the store, branch and jump offsets (R100 to R102) -/

theorem fieldImmS_extract_5 (w : InstWord) : (fieldImmS w).extractLsb' 5 7 = w.extractLsb' 25 7 :=
  BitVec.extractLsb'_append_eq_left

theorem fieldImmS_extract_0 (w : InstWord) : (fieldImmS w).extractLsb' 0 5 = w.extractLsb' 7 5 :=
  BitVec.extractLsb'_append_eq_right

theorem fieldImmB_extract_12 (w : InstWord) : (fieldImmB w).extractLsb' 12 1 = w.extractLsb' 31 1 := by
  rw [fieldImmB]
  iterate 3 rw [BitVec.extractLsb'_append_eq_of_le (by decide)]
  exact BitVec.extractLsb'_append_eq_left

theorem fieldImmB_extract_11 (w : InstWord) : (fieldImmB w).extractLsb' 11 1 = w.extractLsb' 7 1 := by
  rw [fieldImmB]
  iterate 3 rw [BitVec.extractLsb'_append_eq_of_le (by decide)]
  exact BitVec.extractLsb'_append_eq_right

theorem fieldImmB_extract_5 (w : InstWord) : (fieldImmB w).extractLsb' 5 6 = w.extractLsb' 25 6 := by
  rw [fieldImmB]
  iterate 2 rw [BitVec.extractLsb'_append_eq_of_le (by decide)]
  exact BitVec.extractLsb'_append_eq_right

theorem fieldImmB_extract_1 (w : InstWord) : (fieldImmB w).extractLsb' 1 4 = w.extractLsb' 8 4 := by
  rw [fieldImmB, BitVec.extractLsb'_append_eq_of_le (by decide)]
  exact BitVec.extractLsb'_append_eq_right

theorem fieldImmB_even (w : InstWord) : (fieldImmB w).getLsbD 0 = false := by
  rw [fieldImmB, BitVec.getLsbD_append]
  rfl

theorem fieldImmJ_extract_20 (w : InstWord) : (fieldImmJ w).extractLsb' 20 1 = w.extractLsb' 31 1 := by
  rw [fieldImmJ]
  iterate 3 rw [BitVec.extractLsb'_append_eq_of_le (by decide)]
  exact BitVec.extractLsb'_append_eq_left

theorem fieldImmJ_extract_12 (w : InstWord) : (fieldImmJ w).extractLsb' 12 8 = w.extractLsb' 12 8 := by
  rw [fieldImmJ]
  iterate 3 rw [BitVec.extractLsb'_append_eq_of_le (by decide)]
  exact BitVec.extractLsb'_append_eq_right

theorem fieldImmJ_extract_11 (w : InstWord) : (fieldImmJ w).extractLsb' 11 1 = w.extractLsb' 20 1 := by
  rw [fieldImmJ]
  iterate 2 rw [BitVec.extractLsb'_append_eq_of_le (by decide)]
  exact BitVec.extractLsb'_append_eq_right

theorem fieldImmJ_extract_1 (w : InstWord) : (fieldImmJ w).extractLsb' 1 10 = w.extractLsb' 21 10 := by
  rw [fieldImmJ, BitVec.extractLsb'_append_eq_of_le (by decide)]
  exact BitVec.extractLsb'_append_eq_right

theorem fieldImmJ_even (w : InstWord) : (fieldImmJ w).getLsbD 0 = false := by
  rw [fieldImmJ, BitVec.getLsbD_append]
  rfl

theorem extractLsb'_zero_one_of_even {n : Nat} {off : BitVec n} (h : off.getLsbD 0 = false) :
    off.extractLsb' 0 1 = 0#1 := by
  refine BitVec.eq_of_getLsbD_eq fun i hi => ?_
  obtain rfl : i = 0 := by omega
  simpa using h

/-- An even branch offset is its four parts and a zero. -/
theorem branchOffset_append {off : BitVec 13} (h : off.getLsbD 0 = false) :
    off.extractLsb' 12 1 ++ off.extractLsb' 11 1 ++ off.extractLsb' 5 6 ++ off.extractLsb' 1 4 ++ 0#1 = off := by
  rw [← extractLsb'_zero_one_of_even h]
  iterate 4 rw [BitVec.extractLsb'_append_extractLsb'_eq_extractLsb' (by decide)]
  exact BitVec.extractLsb'_eq_self

/-- An even jump offset is its four parts and a zero. -/
theorem jumpOffset_append {off : BitVec 21} (h : off.getLsbD 0 = false) :
    off.extractLsb' 20 1 ++ off.extractLsb' 12 8 ++ off.extractLsb' 11 1 ++ off.extractLsb' 1 10 ++ 0#1 = off := by
  rw [← extractLsb'_zero_one_of_even h]
  iterate 4 rw [BitVec.extractLsb'_append_extractLsb'_eq_extractLsb' (by decide)]
  exact BitVec.extractLsb'_eq_self

/-! ## The table's parts -/

theorem wordArithRows_subset : wordArithRows ⊆ opcodeTable := fun row h => by simp [opcodeTable, h]

theorem loadStore64Rows_subset : loadStore64Rows ⊆ opcodeTable := fun row h => by simp [opcodeTable, h]

theorem intImmRows_subset : intImmRows ⊆ opcodeTable := fun row h => by simp [opcodeTable, h]

theorem intRegRows_subset : intRegRows ⊆ opcodeTable := fun row h => by simp [opcodeTable, h]

theorem fenceRows_subset : fenceRows ⊆ opcodeTable := fun row h => by simp [opcodeTable, h]

theorem csrRows_subset : csrRows ⊆ opcodeTable := fun row h => by simp [opcodeTable, h]

theorem systemRows_subset : systemRows ⊆ opcodeTable := fun row h => by simp [opcodeTable, h]

theorem loadStoreRows_subset : loadStoreRows ⊆ opcodeTable := fun row h => by simp [opcodeTable, h]

theorem controlRows_subset : controlRows ⊆ opcodeTable := fun row h => by simp [opcodeTable, h]

/-! ## Reading an encoding back, format by format (R92 to R95, R108, R110) -/

theorem opcodeTable_pattern_and_mask : ∀ row ∈ opcodeTable, row.pattern &&& row.mask = row.pattern := by decide

theorem Machine.Encodes.decodeWord_encode {w : InstWord} {i : Instr} (h : Encodes w i) :
    decodeWord (encode i) = .ok i := by
  obtain ⟨henc, hdec⟩ := h
  rwa [henc]

/-- An encoding decodes when it agrees with the pattern of its row under the mask and the row reads its operands
back. -/
theorem decodeWord_encode_of_row {name : String} {p m w : InstWord} {build : InstWord → Instr} {i : Instr}
    (hrow : ⟨name, p, m, build⟩ ∈ opcodeTable) (henc : encode i = w) (hmask : p &&& m = p → w &&& m = p)
    (hbuild : p &&& m = p → build w = i) : decodeWord (encode i) = .ok i :=
  have hpattern := opcodeTable_pattern_and_mask _ hrow
  (encodes_of_row hrow henc (hmask hpattern) (hbuild hpattern)).decodeWord_encode

/-- The pattern of a row that tests `funct3` and the opcode is those two fields. -/
theorem eq_layoutI_of_masked {p : InstWord} (hp : p &&& 0x0000707f#32 = p) :
    p = layoutI 0#12 0#5 (p.extractLsb' 12 3) 0#5 (p.extractLsb' 0 7) := by
  have hmask : place (BitVec.allOnes 3) 12 ||| place (BitVec.allOnes 7) 0 = 0x0000707f#32 := by decide
  simp only [layoutI_eq_place, place_of_zero, BitVec.zero_or, BitVec.or_zero, place_extractLsb']
  rw [← BitVec.and_or_distrib_left, hmask, hp]

section
variable {name : String} {p : InstWord} {rd rs1 rs2 : Reg}

theorem decodeWord_encode_iType {op : Reg → Reg → BitVec 12 → Instr} {imm : BitVec 12}
    (hrow : ⟨name, p, 0x0000707f#32, iType op⟩ ∈ opcodeTable)
    (henc : encode (op rd rs1 imm) = encIType p rd rs1 imm) :
    decodeWord (encode (op rd rs1 imm)) = .ok (op rd rs1 imm) :=
  (encodes_layoutI hrow (eq_layoutI_of_masked (opcodeTable_pattern_and_mask _ hrow)) henc).decodeWord_encode

theorem decodeWord_encode_sType {op : Reg → Reg → BitVec 12 → Instr} {off : BitVec 12}
    (hrow : ⟨name, p, 0x0000707f#32, sType op⟩ ∈ opcodeTable)
    (henc : encode (op rs2 rs1 off) = encSType p rs2 rs1 off) :
    decodeWord (encode (op rs2 rs1 off)) = .ok (op rs2 rs1 off) :=
  (encodes_layoutS hrow (eq_layoutI_of_masked (opcodeTable_pattern_and_mask _ hrow)) henc).decodeWord_encode

theorem decodeWord_encode_csrType {op : Reg → CsrNumber → Reg → Instr} {csr : CsrNumber}
    (hrow : ⟨name, p, 0x0000707f#32, csrType op⟩ ∈ opcodeTable)
    (henc : encode (op rd csr rs1) = encCsrType p rd csr rs1) :
    decodeWord (encode (op rd csr rs1)) = .ok (op rd csr rs1) :=
  decodeWord_encode_iType (op := fun rd rs1 csr => op rd csr rs1) hrow henc

theorem decodeWord_encode_csrImmType {op : Reg → CsrNumber → BitVec 5 → Instr} {csr : CsrNumber} {uimm : BitVec 5}
    (hrow : ⟨name, p, 0x0000707f#32, csrImmType op⟩ ∈ opcodeTable)
    (henc : encode (op rd csr uimm) = encCsrImmType p rd csr uimm) :
    decodeWord (encode (op rd csr uimm)) = .ok (op rd csr uimm) :=
  decodeWord_encode_csrType (op := op) hrow henc

theorem decodeWord_encode_shift64Type {op : Reg → Reg → BitVec 6 → Instr} {sh : BitVec 6}
    (hrow : ⟨name, p, 0xfc00707f#32, shift64Type op⟩ ∈ opcodeTable)
    (henc : encode (op rd rs1 sh) = encShift64Type p rd rs1 sh) :
    decodeWord (encode (op rd rs1 sh)) = .ok (op rd rs1 sh) := by
  refine decodeWord_encode_of_row hrow henc (fun hp => ?_) (fun hp => ?_)
  · simp [encShift64Type, BitVec.and_or_distrib_right, place_and_of_free, hp]
  · simp [shift64Type, fieldRd, fieldRs1, fieldShamt6, encShift64Type, BitVec.extractLsb'_or, extractLsb'_of_masked hp]

theorem decodeWord_encode_rType {op : Reg → Reg → Reg → Instr}
    (hrow : ⟨name, p, 0xfe00707f#32, rType op⟩ ∈ opcodeTable)
    (henc : encode (op rd rs1 rs2) = encRType p rd rs1 rs2) :
    decodeWord (encode (op rd rs1 rs2)) = .ok (op rd rs1 rs2) := by
  refine decodeWord_encode_of_row hrow henc (fun hp => ?_) (fun hp => ?_)
  · simp [encRType, BitVec.and_or_distrib_right, place_and_of_free, hp]
  · simp [rType, fieldRd, fieldRs1, fieldRs2, encRType, BitVec.extractLsb'_or, extractLsb'_of_masked hp]

theorem decodeWord_encode_shift32Type {op : Reg → Reg → BitVec 5 → Instr} {sh : BitVec 5}
    (hrow : ⟨name, p, 0xfe00707f#32, shift32Type op⟩ ∈ opcodeTable)
    (henc : encode (op rd rs1 sh) = encShift32Type p rd rs1 sh) :
    decodeWord (encode (op rd rs1 sh)) = .ok (op rd rs1 sh) :=
  decodeWord_encode_rType (op := op) hrow henc

theorem decodeWord_encode_bType {op : Reg → Reg → BitVec 13 → Instr} {off : BitVec 13}
    (hrow : ⟨name, p, 0x0000707f#32, bType op⟩ ∈ opcodeTable)
    (henc : encode (op rs1 rs2 off) = encBType p rs1 rs2 off) (hoff : (!off.getLsbD 0) = true) :
    decodeWord (encode (op rs1 rs2 off)) = .ok (op rs1 rs2 off) := by
  refine decodeWord_encode_of_row hrow henc (fun hp => ?_) (fun hp => ?_)
  · simp [encBType, BitVec.and_or_distrib_right, place_and_of_free, hp]
  · simp [bType, fieldRs1, fieldRs2, fieldImmB, encBType, BitVec.extractLsb'_or, extractLsb'_of_masked hp,
      branchOffset_append (by simpa using hoff)]

theorem decodeWord_encode_uType {op : Reg → BitVec 20 → Instr} {imm : BitVec 20}
    (hrow : ⟨name, p, 0x0000007f#32, uType op⟩ ∈ opcodeTable) (henc : encode (op rd imm) = encUType p rd imm) :
    decodeWord (encode (op rd imm)) = .ok (op rd imm) := by
  refine decodeWord_encode_of_row hrow henc (fun hp => ?_) (fun hp => ?_)
  · simp [encUType, BitVec.and_or_distrib_right, place_and_of_free, hp]
  · simp [uType, fieldRd, fieldImmU, encUType, BitVec.extractLsb'_or, extractLsb'_of_masked hp]

theorem decodeWord_encode_jType {op : Reg → BitVec 21 → Instr} {off : BitVec 21}
    (hrow : ⟨name, p, 0x0000007f#32, jType op⟩ ∈ opcodeTable) (henc : encode (op rd off) = encJType p rd off)
    (hoff : (!off.getLsbD 0) = true) : decodeWord (encode (op rd off)) = .ok (op rd off) := by
  refine decodeWord_encode_of_row hrow henc (fun hp => ?_) (fun hp => ?_)
  · simp [encJType, BitVec.and_or_distrib_right, place_and_of_free, hp]
  · simp [jType, fieldRd, fieldImmJ, encJType, BitVec.extractLsb'_or, extractLsb'_of_masked hp,
      jumpOffset_append (by simpa using hoff)]

theorem decodeWord_encode_sfenceType {op : Reg → Reg → Instr}
    (hrow : ⟨name, p, 0xfe007fff#32, sfenceType op⟩ ∈ opcodeTable)
    (henc : encode (op rs1 rs2) = encSfenceType p rs1 rs2) :
    decodeWord (encode (op rs1 rs2)) = .ok (op rs1 rs2) := by
  refine decodeWord_encode_of_row hrow henc (fun hp => ?_) (fun hp => ?_)
  · simp [encSfenceType, BitVec.and_or_distrib_right, place_and_of_free, hp]
  · simp [sfenceType, fieldRs1, fieldRs2, encSfenceType, BitVec.extractLsb'_or, extractLsb'_of_masked hp]

theorem decodeWord_encode_fixed {i : Instr} (hrow : ⟨name, encode i, 0xffffffff#32, fun _ => i⟩ ∈ opcodeTable) :
    decodeWord (encode i) = .ok i :=
  decodeWord_encode_of_row hrow rfl id fun _ => rfl

end

/-- The bytes of a word, lowest first, make the word (R56, R64). -/
theorem wordOfBytes_byteOfWord (w : InstWord) :
    wordOfBytes (byteOfWord w 0) (byteOfWord w 1) (byteOfWord w 2) (byteOfWord w 3) = w := by
  unfold wordOfBytes byteOfWord
  iterate 3 rw [BitVec.extractLsb'_append_extractLsb'_eq_extractLsb' (by decide)]
  exact BitVec.extractLsb'_eq_self

/-- The encoding of every instruction in the ranges of R120 decodes to it, by the row of its name. -/
theorem decodeWord_encode (i : Instr) (hwf : i.wellFormed = true) : decodeWord (encode i) = .ok i := by
  cases i with
  | addiw => exact decodeWord_encode_iType (name := "addiw") (wordArithRows_subset (by simp [wordArithRows])) rfl
  | slliw => exact decodeWord_encode_shift32Type (name := "slliw") (wordArithRows_subset (by simp [wordArithRows])) rfl
  | srliw => exact decodeWord_encode_shift32Type (name := "srliw") (wordArithRows_subset (by simp [wordArithRows])) rfl
  | sraiw => exact decodeWord_encode_shift32Type (name := "sraiw") (wordArithRows_subset (by simp [wordArithRows])) rfl
  | addw => exact decodeWord_encode_rType (name := "addw") (wordArithRows_subset (by simp [wordArithRows])) rfl
  | subw => exact decodeWord_encode_rType (name := "subw") (wordArithRows_subset (by simp [wordArithRows])) rfl
  | sllw => exact decodeWord_encode_rType (name := "sllw") (wordArithRows_subset (by simp [wordArithRows])) rfl
  | srlw => exact decodeWord_encode_rType (name := "srlw") (wordArithRows_subset (by simp [wordArithRows])) rfl
  | sraw => exact decodeWord_encode_rType (name := "sraw") (wordArithRows_subset (by simp [wordArithRows])) rfl
  | lwu => exact decodeWord_encode_iType (name := "lwu") (loadStore64Rows_subset (by simp [loadStore64Rows])) rfl
  | ld => exact decodeWord_encode_iType (name := "ld") (loadStore64Rows_subset (by simp [loadStore64Rows])) rfl
  | sd => exact decodeWord_encode_sType (name := "sd") (loadStore64Rows_subset (by simp [loadStore64Rows])) rfl
  | lui => exact decodeWord_encode_uType (name := "lui") (intImmRows_subset (by simp [intImmRows])) rfl
  | auipc => exact decodeWord_encode_uType (name := "auipc") (intImmRows_subset (by simp [intImmRows])) rfl
  | addi => exact decodeWord_encode_iType (name := "addi") (intImmRows_subset (by simp [intImmRows])) rfl
  | slti => exact decodeWord_encode_iType (name := "slti") (intImmRows_subset (by simp [intImmRows])) rfl
  | sltiu => exact decodeWord_encode_iType (name := "sltiu") (intImmRows_subset (by simp [intImmRows])) rfl
  | xori => exact decodeWord_encode_iType (name := "xori") (intImmRows_subset (by simp [intImmRows])) rfl
  | ori => exact decodeWord_encode_iType (name := "ori") (intImmRows_subset (by simp [intImmRows])) rfl
  | andi => exact decodeWord_encode_iType (name := "andi") (intImmRows_subset (by simp [intImmRows])) rfl
  | slli => exact decodeWord_encode_shift64Type (name := "slli") (intImmRows_subset (by simp [intImmRows])) rfl
  | srli => exact decodeWord_encode_shift64Type (name := "srli") (intImmRows_subset (by simp [intImmRows])) rfl
  | srai => exact decodeWord_encode_shift64Type (name := "srai") (intImmRows_subset (by simp [intImmRows])) rfl
  | add => exact decodeWord_encode_rType (name := "add") (intRegRows_subset (by simp [intRegRows])) rfl
  | sub => exact decodeWord_encode_rType (name := "sub") (intRegRows_subset (by simp [intRegRows])) rfl
  | sll => exact decodeWord_encode_rType (name := "sll") (intRegRows_subset (by simp [intRegRows])) rfl
  | slt => exact decodeWord_encode_rType (name := "slt") (intRegRows_subset (by simp [intRegRows])) rfl
  | sltu => exact decodeWord_encode_rType (name := "sltu") (intRegRows_subset (by simp [intRegRows])) rfl
  | xor => exact decodeWord_encode_rType (name := "xor") (intRegRows_subset (by simp [intRegRows])) rfl
  | srl => exact decodeWord_encode_rType (name := "srl") (intRegRows_subset (by simp [intRegRows])) rfl
  | sra => exact decodeWord_encode_rType (name := "sra") (intRegRows_subset (by simp [intRegRows])) rfl
  | or => exact decodeWord_encode_rType (name := "or") (intRegRows_subset (by simp [intRegRows])) rfl
  | and => exact decodeWord_encode_rType (name := "and") (intRegRows_subset (by simp [intRegRows])) rfl
  | fence pred succ => exact (encodes_layoutFence pred succ).decodeWord_encode
  | fenceI => exact decodeWord_encode_fixed (name := "fence.i") (fenceRows_subset (by simp [fenceRows, encode]))
  | csrrw => exact decodeWord_encode_csrType (name := "csrrw") (csrRows_subset (by simp [csrRows])) rfl
  | csrrs => exact decodeWord_encode_csrType (name := "csrrs") (csrRows_subset (by simp [csrRows])) rfl
  | csrrc => exact decodeWord_encode_csrType (name := "csrrc") (csrRows_subset (by simp [csrRows])) rfl
  | csrrwi => exact decodeWord_encode_csrImmType (name := "csrrwi") (csrRows_subset (by simp [csrRows])) rfl
  | csrrsi => exact decodeWord_encode_csrImmType (name := "csrrsi") (csrRows_subset (by simp [csrRows])) rfl
  | csrrci => exact decodeWord_encode_csrImmType (name := "csrrci") (csrRows_subset (by simp [csrRows])) rfl
  | ecall => exact decodeWord_encode_fixed (name := "ecall") (systemRows_subset (by simp [systemRows, encode]))
  | ebreak => exact decodeWord_encode_fixed (name := "ebreak") (systemRows_subset (by simp [systemRows, encode]))
  | uret => exact decodeWord_encode_fixed (name := "uret") (systemRows_subset (by simp [systemRows, encode]))
  | sret => exact decodeWord_encode_fixed (name := "sret") (systemRows_subset (by simp [systemRows, encode]))
  | mret => exact decodeWord_encode_fixed (name := "mret") (systemRows_subset (by simp [systemRows, encode]))
  | wfi => exact decodeWord_encode_fixed (name := "wfi") (systemRows_subset (by simp [systemRows, encode]))
  | sfenceVma =>
    exact decodeWord_encode_sfenceType (name := "sfence.vma") (systemRows_subset (by simp [systemRows])) rfl
  | lb => exact decodeWord_encode_iType (name := "lb") (loadStoreRows_subset (by simp [loadStoreRows])) rfl
  | lh => exact decodeWord_encode_iType (name := "lh") (loadStoreRows_subset (by simp [loadStoreRows])) rfl
  | lw => exact decodeWord_encode_iType (name := "lw") (loadStoreRows_subset (by simp [loadStoreRows])) rfl
  | lbu => exact decodeWord_encode_iType (name := "lbu") (loadStoreRows_subset (by simp [loadStoreRows])) rfl
  | lhu => exact decodeWord_encode_iType (name := "lhu") (loadStoreRows_subset (by simp [loadStoreRows])) rfl
  | sb => exact decodeWord_encode_sType (name := "sb") (loadStoreRows_subset (by simp [loadStoreRows])) rfl
  | sh => exact decodeWord_encode_sType (name := "sh") (loadStoreRows_subset (by simp [loadStoreRows])) rfl
  | sw => exact decodeWord_encode_sType (name := "sw") (loadStoreRows_subset (by simp [loadStoreRows])) rfl
  | jal => exact decodeWord_encode_jType (name := "jal") (controlRows_subset (by simp [controlRows])) rfl hwf
  | jalr => exact decodeWord_encode_iType (name := "jalr") (controlRows_subset (by simp [controlRows])) rfl
  | beq => exact decodeWord_encode_bType (name := "beq") (controlRows_subset (by simp [controlRows])) rfl hwf
  | bne => exact decodeWord_encode_bType (name := "bne") (controlRows_subset (by simp [controlRows])) rfl hwf
  | blt => exact decodeWord_encode_bType (name := "blt") (controlRows_subset (by simp [controlRows])) rfl hwf
  | bge => exact decodeWord_encode_bType (name := "bge") (controlRows_subset (by simp [controlRows])) rfl hwf
  | bltu => exact decodeWord_encode_bType (name := "bltu") (controlRows_subset (by simp [controlRows])) rfl hwf
  | bgeu => exact decodeWord_encode_bType (name := "bgeu") (controlRows_subset (by simp [controlRows])) rfl hwf

/-! ## Writing a word back, format by format -/

/-- Every word the row accepts is the encoding of the instruction the row reads from it. -/
def OpcodeRow.KeepsWords (row : OpcodeRow) : Prop :=
  ∀ w : InstWord, row.accepts w = true → encode (row.build w) = w ∧ (row.build w).wellFormed = true

/-- `word` writes the operands that `build` reads from a word around a pattern; put around the bits under the mask they
give the word back. -/
theorem OpcodeRow.keepsWords_of {name : String} {p m : InstWord} {build : InstWord → Instr}
    (word : InstWord → InstWord → InstWord) (h : ∀ w, encode (build w) = word p w ∧ (build w).wellFormed = true)
    (hword : ∀ w, word (w &&& m) w = w) : (⟨name, p, m, build⟩ : OpcodeRow).KeepsWords := by
  intro w hw
  obtain ⟨henc, hwf⟩ := h w
  obtain rfl : w &&& m = p := beq_iff_eq.1 hw
  exact ⟨henc.trans (hword w), hwf⟩

theorem encIType_fields (w : InstWord) :
    encIType (w &&& 0x0000707f#32) (fieldRd w) (fieldRs1 w) (fieldImmI w) = w := by
  simp only [encIType, fieldRd, fieldRs1, fieldImmI, place_extractLsb', ← BitVec.and_or_distrib_left]
  exact and_eq_self_of_allOnes (by decide)

theorem encShift64Type_fields (w : InstWord) :
    encShift64Type (w &&& 0xfc00707f#32) (fieldRd w) (fieldRs1 w) (fieldShamt6 w) = w := by
  simp only [encShift64Type, fieldRd, fieldRs1, fieldShamt6, place_extractLsb', ← BitVec.and_or_distrib_left]
  exact and_eq_self_of_allOnes (by decide)

theorem encRType_fields (w : InstWord) :
    encRType (w &&& 0xfe00707f#32) (fieldRd w) (fieldRs1 w) (fieldRs2 w) = w := by
  simp only [encRType, fieldRd, fieldRs1, fieldRs2, place_extractLsb', ← BitVec.and_or_distrib_left]
  exact and_eq_self_of_allOnes (by decide)

theorem encSType_fields (w : InstWord) :
    encSType (w &&& 0x0000707f#32) (fieldRs2 w) (fieldRs1 w) (fieldImmS w) = w := by
  simp only [encSType, fieldRs2, fieldRs1, fieldImmS_extract_5, fieldImmS_extract_0, place_extractLsb',
    ← BitVec.and_or_distrib_left]
  exact and_eq_self_of_allOnes (by decide)

theorem encBType_fields (w : InstWord) :
    encBType (w &&& 0x0000707f#32) (fieldRs1 w) (fieldRs2 w) (fieldImmB w) = w := by
  simp only [encBType, fieldRs1, fieldRs2, fieldImmB_extract_12, fieldImmB_extract_11, fieldImmB_extract_5,
    fieldImmB_extract_1, place_extractLsb', ← BitVec.and_or_distrib_left]
  exact and_eq_self_of_allOnes (by decide)

theorem encUType_fields (w : InstWord) : encUType (w &&& 0x0000007f#32) (fieldRd w) (fieldImmU w) = w := by
  simp only [encUType, fieldRd, fieldImmU, place_extractLsb', ← BitVec.and_or_distrib_left]
  exact and_eq_self_of_allOnes (by decide)

theorem encJType_fields (w : InstWord) : encJType (w &&& 0x0000007f#32) (fieldRd w) (fieldImmJ w) = w := by
  simp only [encJType, fieldRd, fieldImmJ_extract_20, fieldImmJ_extract_12, fieldImmJ_extract_11,
    fieldImmJ_extract_1, place_extractLsb', ← BitVec.and_or_distrib_left]
  exact and_eq_self_of_allOnes (by decide)

theorem encFenceType_fields (w : InstWord) : encFenceType (w &&& 0xf00fffff#32) (fieldPred w) (fieldSucc w) = w := by
  simp only [encFenceType, fieldPred, fieldSucc, place_extractLsb', ← BitVec.and_or_distrib_left]
  exact and_eq_self_of_allOnes (by decide)

theorem encSfenceType_fields (w : InstWord) : encSfenceType (w &&& 0xfe007fff#32) (fieldRs1 w) (fieldRs2 w) = w := by
  simp only [encSfenceType, fieldRs1, fieldRs2, place_extractLsb', ← BitVec.and_or_distrib_left]
  exact and_eq_self_of_allOnes (by decide)

section
variable {name : String} {p : InstWord}

theorem keepsWords_iType {op : Reg → Reg → BitVec 12 → Instr}
    (h : ∀ rd rs1 imm, encode (op rd rs1 imm) = encIType p rd rs1 imm ∧ (op rd rs1 imm).wellFormed = true) :
    OpcodeRow.KeepsWords ⟨name, p, 0x0000707f#32, iType op⟩ :=
  OpcodeRow.keepsWords_of (fun p w => encIType p (fieldRd w) (fieldRs1 w) (fieldImmI w)) (fun _ => h _ _ _)
    encIType_fields

theorem keepsWords_csrType {op : Reg → CsrNumber → Reg → Instr}
    (h : ∀ rd csr rs1, encode (op rd csr rs1) = encCsrType p rd csr rs1 ∧ (op rd csr rs1).wellFormed = true) :
    OpcodeRow.KeepsWords ⟨name, p, 0x0000707f#32, csrType op⟩ :=
  keepsWords_iType (op := fun rd rs1 csr => op rd csr rs1) fun _ _ _ => h _ _ _

theorem keepsWords_shift64Type {op : Reg → Reg → BitVec 6 → Instr}
    (h : ∀ rd rs1 sh, encode (op rd rs1 sh) = encShift64Type p rd rs1 sh ∧ (op rd rs1 sh).wellFormed = true) :
    OpcodeRow.KeepsWords ⟨name, p, 0xfc00707f#32, shift64Type op⟩ :=
  OpcodeRow.keepsWords_of (fun p w => encShift64Type p (fieldRd w) (fieldRs1 w) (fieldShamt6 w)) (fun _ => h _ _ _)
    encShift64Type_fields

theorem keepsWords_rType {op : Reg → Reg → Reg → Instr}
    (h : ∀ rd rs1 rs2, encode (op rd rs1 rs2) = encRType p rd rs1 rs2 ∧ (op rd rs1 rs2).wellFormed = true) :
    OpcodeRow.KeepsWords ⟨name, p, 0xfe00707f#32, rType op⟩ :=
  OpcodeRow.keepsWords_of (fun p w => encRType p (fieldRd w) (fieldRs1 w) (fieldRs2 w)) (fun _ => h _ _ _)
    encRType_fields

theorem keepsWords_sType {op : Reg → Reg → BitVec 12 → Instr}
    (h : ∀ rs2 rs1 off, encode (op rs2 rs1 off) = encSType p rs2 rs1 off ∧ (op rs2 rs1 off).wellFormed = true) :
    OpcodeRow.KeepsWords ⟨name, p, 0x0000707f#32, sType op⟩ :=
  OpcodeRow.keepsWords_of (fun p w => encSType p (fieldRs2 w) (fieldRs1 w) (fieldImmS w)) (fun _ => h _ _ _)
    encSType_fields

theorem keepsWords_bType {op : Reg → Reg → BitVec 13 → Instr}
    (h : ∀ rs1 rs2 off, encode (op rs1 rs2 off) = encBType p rs1 rs2 off ∧
      (op rs1 rs2 off).wellFormed = !off.getLsbD 0) :
    OpcodeRow.KeepsWords ⟨name, p, 0x0000707f#32, bType op⟩ :=
  OpcodeRow.keepsWords_of (fun p w => encBType p (fieldRs1 w) (fieldRs2 w) (fieldImmB w))
    (fun w => (h _ _ _).imp_right fun hwf => by rw [bType, hwf, fieldImmB_even]; rfl) encBType_fields

theorem keepsWords_uType {op : Reg → BitVec 20 → Instr}
    (h : ∀ rd imm, encode (op rd imm) = encUType p rd imm ∧ (op rd imm).wellFormed = true) :
    OpcodeRow.KeepsWords ⟨name, p, 0x0000007f#32, uType op⟩ :=
  OpcodeRow.keepsWords_of (fun p w => encUType p (fieldRd w) (fieldImmU w)) (fun _ => h _ _) encUType_fields

theorem keepsWords_jType {op : Reg → BitVec 21 → Instr}
    (h : ∀ rd off, encode (op rd off) = encJType p rd off ∧ (op rd off).wellFormed = !off.getLsbD 0) :
    OpcodeRow.KeepsWords ⟨name, p, 0x0000007f#32, jType op⟩ :=
  OpcodeRow.keepsWords_of (fun p w => encJType p (fieldRd w) (fieldImmJ w))
    (fun w => (h _ _).imp_right fun hwf => by rw [jType, hwf, fieldImmJ_even]; rfl) encJType_fields

theorem keepsWords_fenceType {op : BitVec 4 → BitVec 4 → Instr}
    (h : ∀ pred succ, encode (op pred succ) = encFenceType p pred succ ∧ (op pred succ).wellFormed = true) :
    OpcodeRow.KeepsWords ⟨name, p, 0xf00fffff#32, fenceType op⟩ :=
  OpcodeRow.keepsWords_of (fun p w => encFenceType p (fieldPred w) (fieldSucc w)) (fun _ => h _ _) encFenceType_fields

theorem keepsWords_sfenceType {op : Reg → Reg → Instr}
    (h : ∀ rs1 rs2, encode (op rs1 rs2) = encSfenceType p rs1 rs2 ∧ (op rs1 rs2).wellFormed = true) :
    OpcodeRow.KeepsWords ⟨name, p, 0xfe007fff#32, sfenceType op⟩ :=
  OpcodeRow.keepsWords_of (fun p w => encSfenceType p (fieldRs1 w) (fieldRs2 w)) (fun _ => h _ _) encSfenceType_fields

theorem keepsWords_fixed {i : Instr} (h : encode i = p ∧ i.wellFormed = true) :
    OpcodeRow.KeepsWords ⟨name, p, 0xffffffff#32, fun _ => i⟩ :=
  OpcodeRow.keepsWords_of (fun p _ => p) (fun _ => h) fun _ => and_eq_self_of_allOnes (by decide)

end

theorem wordArithRows_keepWords : ∀ row ∈ wordArithRows, row.KeepsWords := by
  simp only [wordArithRows, List.forall_mem_cons, List.not_mem_nil, false_imp_iff, implies_true, and_true]
  exact ⟨keepsWords_iType fun _ _ _ => ⟨rfl, rfl⟩, keepsWords_rType fun _ _ _ => ⟨rfl, rfl⟩,
    keepsWords_rType fun _ _ _ => ⟨rfl, rfl⟩, keepsWords_rType fun _ _ _ => ⟨rfl, rfl⟩,
    keepsWords_rType fun _ _ _ => ⟨rfl, rfl⟩, keepsWords_rType fun _ _ _ => ⟨rfl, rfl⟩,
    keepsWords_rType fun _ _ _ => ⟨rfl, rfl⟩, keepsWords_rType fun _ _ _ => ⟨rfl, rfl⟩,
    keepsWords_rType fun _ _ _ => ⟨rfl, rfl⟩⟩

theorem loadStore64Rows_keepWords : ∀ row ∈ loadStore64Rows, row.KeepsWords := by
  simp only [loadStore64Rows, List.forall_mem_cons, List.not_mem_nil, false_imp_iff, implies_true, and_true]
  exact ⟨keepsWords_iType fun _ _ _ => ⟨rfl, rfl⟩, keepsWords_iType fun _ _ _ => ⟨rfl, rfl⟩,
    keepsWords_sType fun _ _ _ => ⟨rfl, rfl⟩⟩

theorem intImmRows_keepWords : ∀ row ∈ intImmRows, row.KeepsWords := by
  simp only [intImmRows, List.forall_mem_cons, List.not_mem_nil, false_imp_iff, implies_true, and_true]
  exact ⟨keepsWords_uType fun _ _ => ⟨rfl, rfl⟩, keepsWords_uType fun _ _ => ⟨rfl, rfl⟩,
    keepsWords_iType fun _ _ _ => ⟨rfl, rfl⟩, keepsWords_iType fun _ _ _ => ⟨rfl, rfl⟩,
    keepsWords_iType fun _ _ _ => ⟨rfl, rfl⟩, keepsWords_iType fun _ _ _ => ⟨rfl, rfl⟩,
    keepsWords_iType fun _ _ _ => ⟨rfl, rfl⟩, keepsWords_iType fun _ _ _ => ⟨rfl, rfl⟩,
    keepsWords_shift64Type fun _ _ _ => ⟨rfl, rfl⟩, keepsWords_shift64Type fun _ _ _ => ⟨rfl, rfl⟩,
    keepsWords_shift64Type fun _ _ _ => ⟨rfl, rfl⟩⟩

theorem intRegRows_keepWords : ∀ row ∈ intRegRows, row.KeepsWords := by
  simp only [intRegRows, List.forall_mem_cons, List.not_mem_nil, false_imp_iff, implies_true, and_true]
  exact ⟨keepsWords_rType fun _ _ _ => ⟨rfl, rfl⟩, keepsWords_rType fun _ _ _ => ⟨rfl, rfl⟩,
    keepsWords_rType fun _ _ _ => ⟨rfl, rfl⟩, keepsWords_rType fun _ _ _ => ⟨rfl, rfl⟩,
    keepsWords_rType fun _ _ _ => ⟨rfl, rfl⟩, keepsWords_rType fun _ _ _ => ⟨rfl, rfl⟩,
    keepsWords_rType fun _ _ _ => ⟨rfl, rfl⟩, keepsWords_rType fun _ _ _ => ⟨rfl, rfl⟩,
    keepsWords_rType fun _ _ _ => ⟨rfl, rfl⟩, keepsWords_rType fun _ _ _ => ⟨rfl, rfl⟩⟩

theorem fenceRows_keepWords : ∀ row ∈ fenceRows, row.KeepsWords := by
  simp only [fenceRows, List.forall_mem_cons, List.not_mem_nil, false_imp_iff, implies_true, and_true]
  exact ⟨keepsWords_fenceType fun _ _ => ⟨rfl, rfl⟩, keepsWords_fixed ⟨rfl, rfl⟩⟩

theorem csrRows_keepWords : ∀ row ∈ csrRows, row.KeepsWords := by
  simp only [csrRows, List.forall_mem_cons, List.not_mem_nil, false_imp_iff, implies_true, and_true]
  exact ⟨keepsWords_csrType fun _ _ _ => ⟨rfl, rfl⟩, keepsWords_csrType fun _ _ _ => ⟨rfl, rfl⟩,
    keepsWords_csrType fun _ _ _ => ⟨rfl, rfl⟩, keepsWords_csrType fun _ _ _ => ⟨rfl, rfl⟩,
    keepsWords_csrType fun _ _ _ => ⟨rfl, rfl⟩, keepsWords_csrType fun _ _ _ => ⟨rfl, rfl⟩⟩

theorem systemRows_keepWords : ∀ row ∈ systemRows, row.KeepsWords := by
  simp only [systemRows, List.forall_mem_cons, List.not_mem_nil, false_imp_iff, implies_true, and_true]
  exact ⟨keepsWords_fixed ⟨rfl, rfl⟩, keepsWords_fixed ⟨rfl, rfl⟩, keepsWords_fixed ⟨rfl, rfl⟩,
    keepsWords_fixed ⟨rfl, rfl⟩, keepsWords_fixed ⟨rfl, rfl⟩, keepsWords_fixed ⟨rfl, rfl⟩,
    keepsWords_sfenceType fun _ _ => ⟨rfl, rfl⟩⟩

theorem loadStoreRows_keepWords : ∀ row ∈ loadStoreRows, row.KeepsWords := by
  simp only [loadStoreRows, List.forall_mem_cons, List.not_mem_nil, false_imp_iff, implies_true, and_true]
  exact ⟨keepsWords_iType fun _ _ _ => ⟨rfl, rfl⟩, keepsWords_iType fun _ _ _ => ⟨rfl, rfl⟩,
    keepsWords_iType fun _ _ _ => ⟨rfl, rfl⟩, keepsWords_iType fun _ _ _ => ⟨rfl, rfl⟩,
    keepsWords_iType fun _ _ _ => ⟨rfl, rfl⟩, keepsWords_sType fun _ _ _ => ⟨rfl, rfl⟩,
    keepsWords_sType fun _ _ _ => ⟨rfl, rfl⟩, keepsWords_sType fun _ _ _ => ⟨rfl, rfl⟩⟩

theorem controlRows_keepWords : ∀ row ∈ controlRows, row.KeepsWords := by
  simp only [controlRows, List.forall_mem_cons, List.not_mem_nil, false_imp_iff, implies_true, and_true]
  exact ⟨keepsWords_jType fun _ _ => ⟨rfl, rfl⟩, keepsWords_iType fun _ _ _ => ⟨rfl, rfl⟩,
    keepsWords_bType fun _ _ _ => ⟨rfl, rfl⟩, keepsWords_bType fun _ _ _ => ⟨rfl, rfl⟩,
    keepsWords_bType fun _ _ _ => ⟨rfl, rfl⟩, keepsWords_bType fun _ _ _ => ⟨rfl, rfl⟩,
    keepsWords_bType fun _ _ _ => ⟨rfl, rfl⟩, keepsWords_bType fun _ _ _ => ⟨rfl, rfl⟩⟩

theorem opcodeTable_keepWords : ∀ row ∈ opcodeTable, row.KeepsWords := by
  simp only [opcodeTable, List.forall_mem_append, and_assoc]
  exact ⟨wordArithRows_keepWords, loadStore64Rows_keepWords, intImmRows_keepWords, intRegRows_keepWords,
    fenceRows_keepWords, csrRows_keepWords, systemRows_keepWords, loadStoreRows_keepWords, controlRows_keepWords⟩

theorem decodeWord_of_no_row {w : InstWord} (h : ∀ row ∈ opcodeTable, row.accepts w = false) :
    decodeWord w = .error (classifyIllegal w) := by
  have hfind : opcodeTable.find? (fun row => row.accepts w) = none :=
    List.find?_eq_none.2 fun row hrow => by simp [h row hrow]
  rw [decodeWord, hfind]

/-! ## Words that no row accepts (R111, R112) -/

/-- A word that a row accepts holds the pattern in every field that the mask covers. -/
theorem OpcodeRow.extractLsb'_of_accepts {row : OpcodeRow} {w : InstWord} {k n : Nat}
    (hmask : row.mask.extractLsb' k n = BitVec.allOnes n) (h : row.accepts w = true) :
    w.extractLsb' k n = row.pattern.extractLsb' k n := by
  rw [← beq_iff_eq.1 h, BitVec.extractLsb'_and, hmask, BitVec.and_allOnes]

def OpcodeRow.opcode (row : OpcodeRow) : BitVec 7 := row.pattern.extractLsb' 0 7

def OpcodeRow.funct3 (row : OpcodeRow) : BitVec 3 := row.pattern.extractLsb' 12 3

section
variable {row : OpcodeRow} {w : InstWord}

theorem opcode_of_accepts (hrow : row ∈ opcodeTable) (h : row.accepts w = true) : w.extractLsb' 0 7 = row.opcode := by
  have covered : ∀ row ∈ opcodeTable, row.mask.extractLsb' 0 7 = BitVec.allOnes 7 := by decide
  exact OpcodeRow.extractLsb'_of_accepts (covered row hrow) h

/-- Every row but those of AUIPC, LUI and JAL tests `funct3`. -/
theorem funct3_of_accepts (hrow : row ∈ opcodeTable) (h : row.accepts w = true) {op : BitVec 7}
    (hop : w.extractLsb' 0 7 = op) (hf : op ∉ [0x17#7, 0x37#7, 0x6F#7]) : w.extractLsb' 12 3 = row.funct3 := by
  have covered : ∀ row ∈ opcodeTable, row.opcode ∉ [0x17#7, 0x37#7, 0x6F#7] →
      row.mask.extractLsb' 12 3 = BitVec.allOnes 3 := by decide
  rw [← hop, opcode_of_accepts hrow h] at hf
  exact OpcodeRow.extractLsb'_of_accepts (covered row hrow hf) h

/-- Bits 1-0 are 11 in every row (R90). -/
theorem length_of_accepts (hrow : row ∈ opcodeTable) (h : row.accepts w = true) : w.extractLsb' 0 2 = 3#2 := by
  have covered : ∀ row ∈ opcodeTable, row.mask.extractLsb' 0 2 = BitVec.allOnes 2 ∧
      row.pattern.extractLsb' 0 2 = 3#2 := by decide
  obtain ⟨hmask, hvalue⟩ := covered row hrow
  rw [OpcodeRow.extractLsb'_of_accepts hmask h, hvalue]

/-- A row that accepts a word of an opcode with minor opcodes (R107) has the word's opcode and `funct3`. -/
theorem minor_of_accepts (hrow : row ∈ opcodeTable) (h : row.accepts w = true) {op : BitVec 7} {f3 : BitVec 3}
    (hop : w.extractLsb' 0 7 = op) (hf3 : w.extractLsb' 12 3 = f3) (hf : op ∉ [0x17#7, 0x37#7, 0x6F#7]) :
    row.opcode = op ∧ row.funct3 = f3 :=
  ⟨(opcode_of_accepts hrow h).symm.trans hop, (funct3_of_accepts hrow h hop hf).symm.trans hf3⟩

/-- OP and OP-32 (R107): the function code 0, or 0x20 for SUB and SRA and their word forms. -/
theorem funct7_of_registerForm (hrow : row ∈ opcodeTable) (h : row.accepts w = true)
    (hop : w.extractLsb' 0 7 = 0x33#7 ∨ w.extractLsb' 0 7 = 0x3B#7) :
    w.extractLsb' 25 7 = 0x00#7 ∨
      w.extractLsb' 25 7 = 0x20#7 ∧ (w.extractLsb' 12 3 = 0#3 ∨ w.extractLsb' 12 3 = 5#3) := by
  have covered : ∀ row ∈ opcodeTable, row.opcode = 0x33#7 ∨ row.opcode = 0x3B#7 →
      row.mask.extractLsb' 12 3 = BitVec.allOnes 3 ∧ row.mask.extractLsb' 25 7 = BitVec.allOnes 7 ∧
        (row.pattern.extractLsb' 25 7 = 0x00#7 ∨ row.pattern.extractLsb' 25 7 = 0x20#7 ∧
          (row.pattern.extractLsb' 12 3 = 0#3 ∨ row.pattern.extractLsb' 12 3 = 5#3)) := by decide
  rw [opcode_of_accepts hrow h] at hop
  obtain ⟨hm3, hm7, hvalue⟩ := covered row hrow hop
  rwa [OpcodeRow.extractLsb'_of_accepts hm3 h, OpcodeRow.extractLsb'_of_accepts hm7 h]

/-- SLLI, SRLI and SRAI (R99). -/
theorem funct6_of_shift (hrow : row ∈ opcodeTable) (h : row.accepts w = true) (hop : w.extractLsb' 0 7 = 0x13#7)
    {f3 : BitVec 3} (hf3 : w.extractLsb' 12 3 = f3) (hshift : f3 = 1#3 ∨ f3 = 5#3) :
    w.extractLsb' 26 6 = 0x00#6 ∨ f3 = 5#3 ∧ w.extractLsb' 26 6 = 0x10#6 := by
  have covered : ∀ row ∈ opcodeTable, row.opcode = 0x13#7 → row.funct3 = 1#3 ∨ row.funct3 = 5#3 →
      row.mask.extractLsb' 26 6 = BitVec.allOnes 6 ∧
        (row.pattern.extractLsb' 26 6 = 0x00#6 ∨ row.funct3 = 5#3 ∧ row.pattern.extractLsb' 26 6 = 0x10#6) := by
    decide
  obtain ⟨hopcode, rfl⟩ := minor_of_accepts hrow h hop hf3 (by decide)
  obtain ⟨hmask, hvalue⟩ := covered row hrow hopcode hshift
  rwa [OpcodeRow.extractLsb'_of_accepts hmask h]

/-- SLLIW, SRLIW and SRAIW (R99, R112). -/
theorem funct7_of_wordShift (hrow : row ∈ opcodeTable) (h : row.accepts w = true) (hop : w.extractLsb' 0 7 = 0x1B#7)
    {f3 : BitVec 3} (hf3 : w.extractLsb' 12 3 = f3) (hshift : f3 = 1#3 ∨ f3 = 5#3) :
    w.extractLsb' 25 7 = 0x00#7 ∨ f3 = 5#3 ∧ w.extractLsb' 25 7 = 0x20#7 := by
  have covered : ∀ row ∈ opcodeTable, row.opcode = 0x1B#7 → row.funct3 = 1#3 ∨ row.funct3 = 5#3 →
      row.mask.extractLsb' 25 7 = BitVec.allOnes 7 ∧
        (row.pattern.extractLsb' 25 7 = 0x00#7 ∨ row.funct3 = 5#3 ∧ row.pattern.extractLsb' 25 7 = 0x20#7) := by
    decide
  obtain ⟨hopcode, rfl⟩ := minor_of_accepts hrow h hop hf3 (by decide)
  obtain ⟨hmask, hvalue⟩ := covered row hrow hopcode hshift
  rwa [OpcodeRow.extractLsb'_of_accepts hmask h]

/-- The fixed fields of FENCE (R105). -/
theorem fixedFields_of_fence (hrow : row ∈ opcodeTable) (h : row.accepts w = true) (hop : w.extractLsb' 0 7 = 0x0F#7)
    (hf3 : w.extractLsb' 12 3 = 0#3) :
    w.extractLsb' 28 4 = 0#4 ∧ w.extractLsb' 15 5 = 0#5 ∧ w.extractLsb' 7 5 = 0#5 := by
  have covered : ∀ row ∈ opcodeTable, row.opcode = 0x0F#7 → row.funct3 = 0#3 →
      row.mask = 0xf00fffff#32 ∧ row.pattern = 0x0000000f#32 := by decide
  obtain ⟨hopcode, hfunct3⟩ := minor_of_accepts hrow h hop hf3 (by decide)
  obtain ⟨hmask, hpattern⟩ := covered row hrow hopcode hfunct3
  refine ⟨?_, ?_, ?_⟩ <;> rw [OpcodeRow.extractLsb'_of_accepts (by rw [hmask]; decide) h, hpattern] <;> decide

/-- A word that a row with a full mask accepts is the row's pattern. -/
theorem OpcodeRow.eq_of_accepts (hmask : row.mask = BitVec.allOnes 32) (h : row.accepts w = true) :
    w = row.pattern := by
  rw [← beq_iff_eq.1 h, hmask, BitVec.and_allOnes]

/-- FENCE.I is one word (R105). -/
theorem eq_of_fenceI (hrow : row ∈ opcodeTable) (h : row.accepts w = true) (hop : w.extractLsb' 0 7 = 0x0F#7)
    (hf3 : w.extractLsb' 12 3 = 1#3) : w = 0x0000100f#32 := by
  have covered : ∀ row ∈ opcodeTable, row.opcode = 0x0F#7 → row.funct3 = 1#3 →
      row.mask = BitVec.allOnes 32 ∧ row.pattern = 0x0000100f#32 := by decide
  obtain ⟨hopcode, hfunct3⟩ := minor_of_accepts hrow h hop hf3 (by decide)
  obtain ⟨hmask, hpattern⟩ := covered row hrow hopcode hfunct3
  rw [OpcodeRow.eq_of_accepts hmask h, hpattern]

/-- SYSTEM with `funct3` 0 (R108): one of six words, or SFENCE.VMA with its `rd` field 0. -/
theorem eq_or_sfence_of_system (hrow : row ∈ opcodeTable) (h : row.accepts w = true)
    (hop : w.extractLsb' 0 7 = 0x73#7) (hf3 : w.extractLsb' 12 3 = 0#3) :
    w ∈ [0x00000073#32, 0x00100073#32, 0x00200073#32, 0x10200073#32, 0x30200073#32, 0x10500073#32] ∨
      w.extractLsb' 25 7 = 0x09#7 ∧ w.extractLsb' 7 5 = 0#5 := by
  have covered : ∀ row ∈ opcodeTable, row.opcode = 0x73#7 → row.funct3 = 0#3 →
      (row.mask = BitVec.allOnes 32 ∧ row.pattern ∈
        [0x00000073#32, 0x00100073#32, 0x00200073#32, 0x10200073#32, 0x30200073#32, 0x10500073#32]) ∨
      (row.mask = 0xfe007fff#32 ∧ row.pattern = 0x12000073#32) := by decide
  obtain ⟨hopcode, hfunct3⟩ := minor_of_accepts hrow h hop hf3 (by decide)
  rcases covered row hrow hopcode hfunct3 with ⟨hmask, hpattern⟩ | ⟨hmask, hpattern⟩
  · rw [OpcodeRow.eq_of_accepts hmask h]
    exact .inl hpattern
  · right
    constructor <;> rw [OpcodeRow.extractLsb'_of_accepts (by rw [hmask]; decide) h, hpattern] <;> decide

/-- No word that R111 and R112 list meets a row. -/
theorem not_accepts_of_listedIllegal (hrow : row ∈ opcodeTable) (hw : ListedIllegal w) : row.accepts w = false := by
  refine Bool.eq_false_iff.2 fun h => ?_
  have hopcode := opcode_of_accepts hrow h
  cases hw with
  | length hlength => exact hlength (length_of_accepts hrow h)
  | allOnes heq =>
    have none : ∀ row ∈ opcodeTable, row.accepts 0xFFFFFFFF#32 = false := by decide
    rw [heq, none row hrow] at h
    cases h
  | major hmajor =>
    have listed : ∀ row ∈ opcodeTable, row.opcode ∈ [0x03#7, 0x0F#7, 0x13#7, 0x17#7, 0x1B#7, 0x23#7, 0x33#7, 0x37#7,
        0x3B#7, 0x63#7, 0x67#7, 0x6F#7, 0x73#7] := by decide
    rw [hopcode] at hmajor
    exact hmajor (listed row hrow)
  | minor op f3 hmem hop hf3 =>
    have tested : op ∉ [0x17#7, 0x37#7, 0x6F#7] := by
      simp only [List.mem_cons, List.not_mem_nil, or_false]
      rintro (rfl | rfl | rfl) <;> simp at hmem
    obtain ⟨rfl, rfl⟩ := minor_of_accepts hrow h hop hf3 tested
    clear hop hf3 tested hopcode h
    revert row
    decide
  | registerForm hop hzero hcode => exact (funct7_of_registerForm hrow h (.inl hop)).elim hzero hcode
  | wordRegisterForm hop hzero hcode => exact (funct7_of_registerForm hrow h (.inr hop)).elim hzero hcode
  | shiftLeft hop hf3 hzero =>
    exact (funct6_of_shift hrow h hop hf3 (.inl rfl)).elim hzero fun ⟨hright, _⟩ => nomatch hright
  | shiftRight hop hf3 hzero hcode =>
    exact (funct6_of_shift hrow h hop hf3 (.inr rfl)).elim hzero fun ⟨_, hright⟩ => hcode hright
  | wordShiftReserved f3 hop hshift hf3 hbit =>
    have hzero : (w.extractLsb' 25 7).getLsbD 0 = false := by
      rcases funct7_of_wordShift hrow h hop hf3 hshift with h7 | ⟨-, h7⟩ <;> rw [h7] <;> rfl
    rw [BitVec.getLsbD_extractLsb', hbit] at hzero
    cases hzero
  | wordShiftLeft hop hf3 hzero =>
    exact (funct7_of_wordShift hrow h hop hf3 (.inl rfl)).elim hzero fun ⟨hright, _⟩ => nomatch hright
  | wordShiftRight hop hf3 hzero hcode =>
    exact (funct7_of_wordShift hrow h hop hf3 (.inr rfl)).elim hzero fun ⟨_, hright⟩ => hcode hright
  | fence hop hf3 hfields =>
    obtain ⟨hfm, hrs1, hrd⟩ := fixedFields_of_fence hrow h hop hf3
    rcases hfields with hne | hne | hne
    · exact hne hfm
    · exact hne hrs1
    · exact hne hrd
  | fenceI hop hf3 hfields =>
    rw [eq_of_fenceI hrow h hop hf3] at hfields
    exact absurd hfields (by decide)
  | system hop hf3 hwords hsfence => exact (eq_or_sfence_of_system hrow h hop hf3).elim hwords hsfence

end

end Sys2Proof

namespace Sys2Proof.Machine

/-! ## Fetching when no byte at `pc` is in S (R64, R66, R367) -/

/-- A fetch whose four bytes are executable main memory answers the word of the bytes it fetches (R64, R66). -/
theorem State.fetch_granted {s : State} (h : FetchGranted s) :
    s.fetch = .word (fetchedWord s)
      (if (accessBytes s.pc 4).any s.inStored then { s with draws := s.draws + 1 } else s) := by
  unfold State.fetch
  rw [if_neg ((any_vacantFor s .execute s.pc 4).not.2 fun ⟨j, hj, hv⟩ => (h j hj).not_vacantByte hv),
    if_neg ((any_isDevice s s.pc 4).not.2 fun ⟨j, hj, hd⟩ => (h j hj).not_deviceByte hd), fetchedWord, byteAddr_zero]
  rfl

theorem fetchedWord_of_synchronised {s : State} (h : FetchSynchronised s) : fetchedWord s = wordAtPc s := by
  simp only [fetchedWord, wordAtPc, State.fetchByte_of_not_inStored (h 0 (by decide)),
    State.fetchByte_of_not_inStored (h 1 (by decide)), State.fetchByte_of_not_inStored (h 2 (by decide)),
    State.fetchByte_of_not_inStored (h 3 (by decide))]

/-- A step of a hart that is ready to fetch runs the word at `pc` (R367). -/
theorem step_of_readyToFetch {s : State} (h : ReadyToFetch s.samplePlatform) :
    step s = s.samplePlatform.runWord (wordAtPc s.samplePlatform) := by
  obtain ⟨hstalled, hnone, hgranted, hsync⟩ := h
  have hstored : ¬ (accessBytes s.samplePlatform.pc 4).any s.samplePlatform.inStored = true := by
    rw [any_accessBytes]
    rintro ⟨j, hj, hin⟩
    rw [hsync j hj] at hin
    cases hin
  rw [step_fetches hstalled hnone, State.fetchAndRun, State.fetch_granted hgranted, if_neg hstored,
    fetchedWord_of_synchronised hsync]

/-! ## The statements -/

/-- Settles O1: format by format the row reads the operands back, and the bytes of the encoding make its word. -/
theorem decodeInvertsEncode : Obligations.DecodeInvertsEncode := by
  intro i hwf
  have hword := decodeWord_encode i hwf
  refine ⟨hword, fun rest => ?_⟩
  rw [decode, wordOfBytes_byteOfWord, hword]
  rfl

/-- Settles O2: the row that decodes the word accepts it, and every row keeps the words it accepts. -/
theorem encodeInvertsDecode : Obligations.EncodeInvertsDecode := by
  intro w i h
  unfold decodeWord at h
  split at h
  · next row hfind =>
    cases h
    exact opcodeTable_keepWords row (List.mem_of_find?_eq_some hfind) w (by simpa using List.find?_some hfind)
  · cases h

/-- Settles O3: two rows disagree at a bit that both test. -/
theorem oneRowMatchesAWord : Obligations.OneRowMatchesAWord :=
  ⟨fun w => opcodeTable_conflicts.imp fun h => OpcodeRow.not_accepts_of_conflicts h w,
    fun _ _ => decodeWord_of_accepts, fun _ h => ⟨_, decodeWord_of_no_row h⟩⟩

/-- Settles O4: the step runs the word at `pc`, which does not decode; each listed word differs from what every row
tests. -/
theorem unmatchedWordIsIllegal : Obligations.UnmatchedWordIsIllegal := by
  refine ⟨fun s hready hrows => ?_, rfl, fun w hw row hrow => not_accepts_of_listedIllegal hrow hw⟩
  rw [step_of_readyToFetch hready, State.runWord, decodeWord_of_no_row hrows]
  exact State.raises_raise ..

end Sys2Proof.Machine
end

section
/-!
SUPPORT. The word arithmetic of `spec/40_word_arith.md` (R130 to R139): an encoding of the R format decodes to the
instruction of its fields, and each 32-bit result is the low word of the integer operation, sign-extended.
-/

namespace Sys2Proof.Machine

/-! ## The R format (R92), and the word shifts by an immediate, which have it with the amount in place of `rs2` -/

theorem layoutR_eq_place (f7 : BitVec 7) (rs2 rs1 : Reg) (f3 : BitVec 3) (rd : Reg) (op : BitVec 7) :
    layoutR f7 rs2 rs1 f3 rd op =
      place f7 25 ||| place rs2 20 ||| place rs1 15 ||| place f3 12 ||| place rd 7 ||| place op 0 := by
  rw [← place_zero (layoutR f7 rs2 rs1 f3 rd op), layoutR, place_append, place_append, place_append, place_append,
    place_append]

/-- The encoder puts the operands where the layout has them. -/
theorem encRType_layoutR (f7 : BitVec 7) (rs2 rs1 : Reg) (f3 : BitVec 3) (rd : Reg) (op : BitVec 7) :
    encRType (layoutR f7 0#5 0#5 f3 0#5 op) rd rs1 rs2 = layoutR f7 rs2 rs1 f3 rd op := by
  simp only [encRType, layoutR_eq_place, place_of_zero]
  generalize place f7 25 = a, place rs2 20 = b, place rs1 15 = c, place f3 12 = d, place rd 7 = e, place op 0 = f
  simp only [BitVec.or_zero]
  ac_rfl

section
variable {name : String} {pattern : InstWord} {rd rs1 : Reg} {f7 : BitVec 7} {f3 : BitVec 3} {op : BitVec 7}

/-- Every word of an R-format row encodes the instruction of its fields. -/
theorem encodes_layoutR {build : Reg → Reg → Reg → Instr} {rs2 : Reg}
    (hrow : ⟨name, pattern, 0xfe00707f#32, rType build⟩ ∈ opcodeTable)
    (hpattern : pattern = layoutR f7 0#5 0#5 f3 0#5 op)
    (henc : encode (build rd rs1 rs2) = encRType pattern rd rs1 rs2) :
    Encodes (layoutR f7 rs2 rs1 f3 rd op) (build rd rs1 rs2) := by
  have hword : encode (build rd rs1 rs2) = layoutR f7 rs2 rs1 f3 rd op := by rw [henc, hpattern, encRType_layoutR]
  exact ⟨hword, hword ▸ decodeWord_encode_rType hrow henc⟩

theorem encodes_layoutShift32 {build : Reg → Reg → BitVec 5 → Instr} {shamt : BitVec 5}
    (hrow : ⟨name, pattern, 0xfe00707f#32, shift32Type build⟩ ∈ opcodeTable)
    (hpattern : pattern = layoutR f7 0#5 0#5 f3 0#5 op)
    (henc : encode (build rd rs1 shamt) = encShift32Type pattern rd rs1 shamt) :
    Encodes (layoutR f7 shamt rs1 f3 rd op) (build rd rs1 shamt) :=
  encodes_layoutR (build := build) hrow hpattern henc

end

/-! ## Words as integers (R9 to R11) -/

theorem add_eq_wrap64 (x y : Word) : x + y = wrap64 (x.toInt + y.toInt) := by
  simp [wrap64, BitVec.ofInt_add]

theorem sub_eq_wrap64 (x y : Word) : x - y = wrap64 (x.toInt - y.toInt) := by
  simp [wrap64, Int.sub_eq_add_neg, BitVec.ofInt_add, BitVec.ofInt_neg, BitVec.sub_eq_add_neg]

theorem add_sext64_eq_wrap64 {n : Nat} (x : Word) (imm : BitVec n) :
    x + sext64 imm = wrap64 (x.toInt + imm.toInt) := by
  rw [wrap64, BitVec.ofInt_add, BitVec.ofInt_toInt]
  rfl

theorem low32_wrap64 (n : Int) : low32 (wrap64 n) = BitVec.ofInt 32 n := by
  apply BitVec.eq_of_toNat_eq
  simp only [low32, wrap64, BitVec.toNat_setWidth, BitVec.toNat_ofInt]
  omega

theorem sext64_ofInt (w : Nat) (n : Int) : sext64 (BitVec.ofInt w n) = signedLow w n := by
  rw [sext64, BitVec.signExtend, BitVec.toInt_ofInt, signedLow]

/-! ## Word results (R139) -/

/-- A sum or difference computed in 64 bits keeps the low word of the integer result. -/
theorem sext64_low32_wrap64 (n : Int) : sext64 (low32 (wrap64 n)) = signedLow 32 n := by
  rw [low32_wrap64, sext64_ofInt]

theorem sext64_low32_shiftLeft (x : Word) (n : Nat) :
    sext64 (low32 x <<< n) = signedLow 32 (x.toNat * 2 ^ n) := by
  have hword : low32 x <<< n = BitVec.ofInt 32 (x.toNat * 2 ^ n : Nat) := by
    apply BitVec.eq_of_toNat_eq
    rw [BitVec.ofInt_natCast]
    simp [low32, Nat.shiftLeft_eq]
  rw [hword, sext64_ofInt]
  norm_cast

theorem sext64_low32_ushiftRight (x : Word) (n : Nat) :
    sext64 (low32 x >>> n) = signedLow 32 (x.toNat % 2 ^ 32 / 2 ^ n : Nat) := by
  have hword : low32 x >>> n = BitVec.ofInt 32 (x.toNat % 2 ^ 32 / 2 ^ n : Nat) := by
    rw [BitVec.ofInt_natCast, ← BitVec.toNat_setWidth, ← Nat.shiftRight_eq_div_pow, ← BitVec.toNat_ushiftRight,
      BitVec.ofNat_toNat, BitVec.setWidth_eq, low32]
  rw [hword, sext64_ofInt]

/-- Shifting copies of bit 31 in is the floor division of the signed low word. -/
theorem sext64_low32_sshiftRight (x : Word) (n : Nat) :
    sext64 ((low32 x).sshiftRight n) = wrap64 (Int.fdiv (Int.bmod x.toNat (2 ^ 32)) (2 ^ n)) := by
  rw [sext64, BitVec.signExtend, BitVec.toInt_sshiftRight, low32, BitVec.toInt_setWidth, Int.shiftRight_eq_div_pow,
    Int.fdiv_eq_ediv_of_nonneg _ (by positivity), wrap64]
  norm_cast

theorem shamt5_eq_mod (v : Word) : shamt5 v = v.toNat % 32 := BitVec.toNat_setWidth ..

/-! ## From the encoder and from `exec` to the rules -/

theorem decodeWord_of_encode_eq {i : Instr} {w : InstWord} (h : encode i = w) (hwf : i.wellFormed = true) :
    decodeWord w = .ok i := by
  rw [← h, decodeWord_encode i hwf]

/-- An instruction whose one effect is a result in `rd` that its rule writes in another form. -/
theorem completesWith_of_exec_of_eq {i : Instr} {s : State} {rd : Reg} {v v' : Word}
    (hexec : exec i s = s.writeAndAdvance rd v) (hv : v = v') : CompletesWith i s rd v' :=
  hv ▸ completesWith_of_exec hexec

/-! ## The statements -/

/-- Settles O13: the 64-bit sum or difference is the word of the integer one, whose low word each instruction keeps. -/
theorem wordSumsComplete : Obligations.WordSumsComplete := by
  intro s rd rs1 rs2 imm
  refine ⟨⟨?_, ?_⟩, ⟨?_, ?_⟩, ⟨?_, ?_⟩⟩
  · exact encodes_layoutI (name := "addiw") (wordArithRows_subset (by simp [wordArithRows])) (by decide) rfl
  · exact completesWith_of_exec_of_eq rfl (by rw [add_sext64_eq_wrap64, sext64_low32_wrap64])
  · exact encodes_layoutR (name := "addw") (wordArithRows_subset (by simp [wordArithRows])) (by decide) rfl
  · exact completesWith_of_exec_of_eq rfl (by rw [add_eq_wrap64, sext64_low32_wrap64])
  · exact encodes_layoutR (name := "subw") (wordArithRows_subset (by simp [wordArithRows])) (by decide) rfl
  · exact completesWith_of_exec_of_eq rfl (by rw [sub_eq_wrap64, sext64_low32_wrap64])

/-- Settles O14: a shift of the low word is a product or a floor division by a power of 2. -/
theorem wordShiftsByImmediateComplete : Obligations.WordShiftsByImmediateComplete := by
  intro s rd rs1 shamt
  refine ⟨⟨?_, ?_⟩, ⟨?_, ?_⟩, ⟨?_, ?_⟩⟩
  · exact encodes_layoutShift32 (name := "slliw") (wordArithRows_subset (by simp [wordArithRows])) (by decide) rfl
  · exact completesWith_of_exec_of_eq rfl (sext64_low32_shiftLeft ..)
  · exact encodes_layoutShift32 (name := "srliw") (wordArithRows_subset (by simp [wordArithRows])) (by decide) rfl
  · exact completesWith_of_exec_of_eq rfl (sext64_low32_ushiftRight ..)
  · exact encodes_layoutShift32 (name := "sraiw") (wordArithRows_subset (by simp [wordArithRows])) (by decide) rfl
  · exact completesWith_of_exec_of_eq rfl (sext64_low32_sshiftRight ..)

/-- Settles O15: the shifts of O14, at the amount that the low 5 bits of `x[rs2]` hold. -/
theorem wordShiftsByRegisterComplete : Obligations.WordShiftsByRegisterComplete := by
  intro s rd rs1 rs2
  rw [← shamt5_eq_mod]
  refine ⟨⟨?_, ?_⟩, ⟨?_, ?_⟩, ⟨?_, ?_⟩⟩
  · exact encodes_layoutR (name := "sllw") (wordArithRows_subset (by simp [wordArithRows])) (by decide) rfl
  · exact completesWith_of_exec_of_eq rfl (sext64_low32_shiftLeft ..)
  · exact encodes_layoutR (name := "srlw") (wordArithRows_subset (by simp [wordArithRows])) (by decide) rfl
  · exact completesWith_of_exec_of_eq rfl (sext64_low32_ushiftRight ..)
  · exact encodes_layoutR (name := "sraw") (wordArithRows_subset (by simp [wordArithRows])) (by decide) rfl
  · exact completesWith_of_exec_of_eq rfl (sext64_low32_sshiftRight ..)

/-- Settles O5: each word is the encoding of its instruction, which decodes. -/
theorem specWordsDecode : Obligations.SpecWordsDecode := by
  refine ⟨?_, ?_, ?_, ?_, ?_, ?_, ?_, ?_⟩ <;> exact decodeWord_of_encode_eq (by decide) rfl

end Sys2Proof.Machine
end

section
/-!
SUPPORT. The integer computation of `spec/42_int_imm.md` and its register forms in `spec/43_int_reg.md` (R160 to R170,
R180, R181, R183 to R185, R188, R189): every encoding decodes, so an encoding is known by the word the encoder makes;
each 64-bit result is the integer, the truth value or the bits that its rule writes.
-/

namespace Sys2Proof.Machine

/-! ## The U format (R95) and the shifts by a 6-bit amount (R99) -/

theorem encodes_of_encode_eq {w : InstWord} {i : Instr} (h : encode i = w) (hwf : i.wellFormed = true) : Encodes w i :=
  ⟨h, decodeWord_of_encode_eq h hwf⟩

theorem layoutU_eq_place (imm : BitVec 20) (rd : Reg) (op : BitVec 7) :
    layoutU imm rd op = place imm 12 ||| place rd 7 ||| place op 0 := by
  rw [← place_zero (layoutU imm rd op), layoutU, place_append, place_append]

/-- The encoder puts the operands where the layout has them. -/
theorem encUType_layoutU (imm : BitVec 20) (rd : Reg) (op : BitVec 7) :
    encUType (layoutU 0#20 0#5 op) rd imm = layoutU imm rd op := by
  simp only [encUType, layoutU_eq_place, place_of_zero]
  generalize place imm 12 = a, place rd 7 = b, place op 0 = c
  simp only [BitVec.zero_or]
  ac_rfl

theorem layoutShift64_eq_place (f6 shamt : BitVec 6) (rs1 : Reg) (f3 : BitVec 3) (rd : Reg) (op : BitVec 7) :
    layoutShift64 f6 shamt rs1 f3 rd op =
      place f6 26 ||| place shamt 20 ||| place rs1 15 ||| place f3 12 ||| place rd 7 ||| place op 0 := by
  rw [← place_zero (layoutShift64 f6 shamt rs1 f3 rd op), layoutShift64, place_append, place_append, place_append,
    place_append, place_append]

theorem encShift64Type_layoutShift64 (f6 shamt : BitVec 6) (rs1 : Reg) (f3 : BitVec 3) (rd : Reg) (op : BitVec 7) :
    encShift64Type (layoutShift64 f6 0#6 0#5 f3 0#5 op) rd rs1 shamt = layoutShift64 f6 shamt rs1 f3 rd op := by
  simp only [encShift64Type, layoutShift64_eq_place, place_of_zero]
  generalize place f6 26 = a, place shamt 20 = b, place rs1 15 = c, place f3 12 = d, place rd 7 = e, place op 0 = f
  simp only [BitVec.or_zero]
  ac_rfl

section
variable {i : Instr} {pattern : InstWord} {rd rs1 : Reg} {op : BitVec 7}

theorem encodes_layoutU {imm : BitVec 20} (henc : encode i = encUType pattern rd imm)
    (hpattern : pattern = layoutU 0#20 0#5 op) (hwf : i.wellFormed = true) : Encodes (layoutU imm rd op) i :=
  encodes_of_encode_eq (by rw [henc, hpattern, encUType_layoutU]) hwf

theorem encodes_layoutShift64 {f6 shamt : BitVec 6} {f3 : BitVec 3}
    (henc : encode i = encShift64Type pattern rd rs1 shamt)
    (hpattern : pattern = layoutShift64 f6 0#6 0#5 f3 0#5 op) (hwf : i.wellFormed = true) :
    Encodes (layoutShift64 f6 shamt rs1 f3 rd op) i :=
  encodes_of_encode_eq (by rw [henc, hpattern, encShift64Type_layoutShift64]) hwf

end

/-! ## Sign extension as an integer and bit by bit (R11, R98) -/

theorem toInt_sext64 (imm : BitVec 12) : (sext64 imm).toInt = imm.toInt :=
  BitVec.toInt_signExtend_of_le (by decide)

theorem toNat_sext64 {n : Nat} (v : BitVec n) : ((sext64 v).toNat : Int) = v.toInt % 2 ^ 64 := by
  rw [sext64, BitVec.signExtend, BitVec.toNat_ofInt, Int.toNat_of_nonneg (Int.emod_nonneg _ (by decide))]
  rfl

/-- Bit 11 of an immediate stands for every bit above it. -/
theorem getLsbD_sext64 (imm : BitVec 12) {k : Nat} (hk : k < 64) :
    (sext64 imm).getLsbD k = imm.getLsbD (min k 11) := by
  rw [sext64, BitVec.getLsbD_signExtend, BitVec.msb_eq_getLsbD_last, decide_eq_true hk, Bool.true_and]
  split
  · next h => rw [Nat.min_eq_left (by omega)]
  · next h => rw [Nat.min_eq_right (by omega)]

/-- The operand of LUI and AUIPC as a 32-bit value (R103). -/
theorem upperImm_eq_signedLow (imm : BitVec 20) : upperImm imm = signedLow 32 (imm.toNat * 4096) := by
  have hword : imm ++ 0#12 = BitVec.ofInt 32 (imm.toNat * 4096 : Nat) := by
    apply BitVec.eq_of_toNat_eq
    have hfits : imm.toNat * 4096 < 2 ^ 32 := by omega
    rw [BitVec.ofInt_natCast, BitVec.toNat_append, BitVec.toNat_zero, Nat.or_zero, Nat.shiftLeft_eq,
      BitVec.toNat_ofNat, Nat.mod_eq_of_lt hfits]
  rw [upperImm, hword, sext64_ofInt]
  norm_cast

theorem add_signedLow (x : Word) (w : Nat) (n : Int) : x + signedLow w n = wrap64 (x.toNat + Int.bmod n (2 ^ w)) := by
  rw [wrap64, BitVec.ofInt_add, BitVec.ofInt_natCast, BitVec.ofNat_toNat, BitVec.setWidth_eq, signedLow]

/-! ## Comparisons (R10) -/

theorem boolWord_decide (p : Prop) [Decidable p] : boolWord (decide p) = if p then 1 else 0 := by
  simp [boolWord]

theorem boolWord_slt (x y : Word) : boolWord (x.slt y) = if x.toInt < y.toInt then 1 else 0 := boolWord_decide _

theorem boolWord_ult (x y : Word) : boolWord (x.ult y) = if x.toNat < y.toNat then 1 else 0 := boolWord_decide _

theorem boolWord_slt_sext64 (x : Word) (imm : BitVec 12) :
    boolWord (x.slt (sext64 imm)) = if x.toInt < imm.toInt then 1 else 0 := by
  rw [boolWord_slt, toInt_sext64]

theorem boolWord_ult_sext64 (x : Word) (imm : BitVec 12) :
    boolWord (x.ult (sext64 imm)) = if (x.toNat : Int) < imm.toInt % 2 ^ 64 then 1 else 0 := by
  rw [boolWord_ult, ← toNat_sext64]
  simp only [Int.ofNat_lt]

/-! ## Shifts of all 64 bits -/

theorem shiftLeft_eq_wrap64 (x : Word) (n : Nat) : x <<< n = wrap64 (x.toNat * 2 ^ n) := by
  have hword : x <<< n = BitVec.ofInt 64 (x.toNat * 2 ^ n : Nat) := by
    rw [BitVec.ofInt_natCast, ← Nat.shiftLeft_eq]
    rfl
  rw [hword, wrap64]
  norm_cast

theorem ushiftRight_eq_wrap64 (x : Word) (n : Nat) : x >>> n = wrap64 (x.toNat / 2 ^ n : Nat) := by
  rw [wrap64, BitVec.ofInt_natCast, ← Nat.shiftRight_eq_div_pow, ← BitVec.toNat_ushiftRight, BitVec.ofNat_toNat,
    BitVec.setWidth_eq]

/-- Shifting copies of bit 63 in is the floor division of the signed value. -/
theorem sshiftRight_eq_wrap64 (x : Word) (n : Nat) : x.sshiftRight n = wrap64 (Int.fdiv x.toInt (2 ^ n)) := by
  rw [wrap64, Int.fdiv_eq_ediv_of_nonneg _ (by positivity), BitVec.sshiftRight, Int.shiftRight_eq_div_pow]
  norm_cast

/-! ## Results given bit by bit -/

theorem completesBitwise_of_exec {i : Instr} {s : State} {rd : Reg} {v : Word} {bit : Nat → Bool}
    (hexec : exec i s = s.writeAndAdvance rd v) (hbit : ∀ k, k < 64 → v.getLsbD k = bit k) :
    CompletesBitwise i s rd bit :=
  ⟨v, hbit, completesWith_of_exec hexec⟩

/-! ## The statements -/

/-- Settles O16: the field above 12 zeros is the 32-bit value that its rules sign-extend. -/
theorem upperImmediatesComplete : Obligations.UpperImmediatesComplete := by
  intro s rd imm
  refine ⟨⟨?_, ?_⟩, ⟨?_, ?_⟩⟩
  · exact encodes_layoutU rfl (by decide) rfl
  · exact completesWith_of_exec_of_eq rfl (upperImm_eq_signedLow imm)
  · exact encodes_layoutU rfl (by decide) rfl
  · exact completesWith_of_exec_of_eq rfl (by rw [upperImm_eq_signedLow, add_signedLow])

/-- Settles O17: the sum or difference of words is the word of the integer one. -/
theorem sumsComplete : Obligations.SumsComplete := by
  intro s rd rs1 rs2 imm
  refine ⟨⟨?_, ?_⟩, ⟨?_, ?_⟩, ⟨?_, ?_⟩⟩
  · exact encodes_layoutI (name := "addi") (intImmRows_subset (by simp [intImmRows])) (by decide) rfl
  · exact completesWith_of_exec_of_eq rfl (add_sext64_eq_wrap64 ..)
  · exact encodes_layoutR (name := "add") (intRegRows_subset (by simp [intRegRows])) (by decide) rfl
  · exact completesWith_of_exec_of_eq rfl (add_eq_wrap64 ..)
  · exact encodes_layoutR (name := "sub") (intRegRows_subset (by simp [intRegRows])) (by decide) rfl
  · exact completesWith_of_exec_of_eq rfl (sub_eq_wrap64 ..)

/-- Settles O18: extending the sign keeps an immediate's signed value, and makes its unsigned value the residue modulo
2^64. -/
theorem comparisonsComplete : Obligations.ComparisonsComplete := by
  intro s rd rs1 rs2 imm
  refine ⟨⟨?_, ?_⟩, ⟨?_, ?_⟩, ⟨?_, ?_⟩, ⟨?_, ?_⟩⟩
  · exact encodes_layoutI (name := "slti") (intImmRows_subset (by simp [intImmRows])) (by decide) rfl
  · exact completesWith_of_exec_of_eq rfl (boolWord_slt_sext64 ..)
  · exact encodes_layoutI (name := "sltiu") (intImmRows_subset (by simp [intImmRows])) (by decide) rfl
  · exact completesWith_of_exec_of_eq rfl (boolWord_ult_sext64 ..)
  · exact encodes_layoutR (name := "slt") (intRegRows_subset (by simp [intRegRows])) (by decide) rfl
  · exact completesWith_of_exec_of_eq rfl (boolWord_slt ..)
  · exact encodes_layoutR (name := "sltu") (intRegRows_subset (by simp [intRegRows])) (by decide) rfl
  · exact completesWith_of_exec_of_eq rfl (boolWord_ult ..)

/-- Settles O19: each operation acts on the two bits, of which an immediate's is its sign extension's. -/
theorem bitwiseOperationsComplete : Obligations.BitwiseOperationsComplete := by
  intro s rd rs1 rs2 imm
  refine ⟨⟨?_, ?_⟩, ⟨?_, ?_⟩, ⟨?_, ?_⟩, ⟨?_, ?_⟩, ⟨?_, ?_⟩, ⟨?_, ?_⟩⟩
  · exact encodes_layoutI (name := "xori") (intImmRows_subset (by simp [intImmRows])) (by decide) rfl
  · exact completesBitwise_of_exec rfl fun k hk => by rw [BitVec.getLsbD_xor, getLsbD_sext64 imm hk]
  · exact encodes_layoutI (name := "ori") (intImmRows_subset (by simp [intImmRows])) (by decide) rfl
  · exact completesBitwise_of_exec rfl fun k hk => by rw [BitVec.getLsbD_or, getLsbD_sext64 imm hk]
  · exact encodes_layoutI (name := "andi") (intImmRows_subset (by simp [intImmRows])) (by decide) rfl
  · exact completesBitwise_of_exec rfl fun k hk => by rw [BitVec.getLsbD_and, getLsbD_sext64 imm hk]
  · exact encodes_layoutR (name := "xor") (intRegRows_subset (by simp [intRegRows])) (by decide) rfl
  · exact completesBitwise_of_exec rfl fun _ _ => BitVec.getLsbD_xor
  · exact encodes_layoutR (name := "or") (intRegRows_subset (by simp [intRegRows])) (by decide) rfl
  · exact completesBitwise_of_exec rfl fun _ _ => BitVec.getLsbD_or
  · exact encodes_layoutR (name := "and") (intRegRows_subset (by simp [intRegRows])) (by decide) rfl
  · exact completesBitwise_of_exec rfl fun _ _ => BitVec.getLsbD_and

/-- Settles O20: a shift is a product or a floor division by a power of 2. -/
theorem shiftsByImmediateComplete : Obligations.ShiftsByImmediateComplete := by
  intro s rd rs1 shamt
  refine ⟨⟨?_, ?_⟩, ⟨?_, ?_⟩, ⟨?_, ?_⟩⟩
  · exact encodes_layoutShift64 rfl (by decide) rfl
  · exact completesWith_of_exec_of_eq rfl (shiftLeft_eq_wrap64 ..)
  · exact encodes_layoutShift64 rfl (by decide) rfl
  · exact completesWith_of_exec_of_eq rfl (ushiftRight_eq_wrap64 ..)
  · exact encodes_layoutShift64 rfl (by decide) rfl
  · exact completesWith_of_exec_of_eq rfl (sshiftRight_eq_wrap64 ..)

end Sys2Proof.Machine
end

section
/-!
SUPPORT. The shifts by a register of `spec/43_int_reg.md` (R182, R186, R187): the shifts of `spec/42_int_imm.md`, at the
amount that a register gives.
-/

namespace Sys2Proof.Machine

theorem shamt6_eq_mod (v : Word) : shamt6 v = v.toNat % 64 := BitVec.toNat_setWidth ..

/-- Settles O21: the shifts of O20, at the amount that the low 6 bits of `x[rs2]` hold. -/
theorem shiftsByRegisterComplete : Obligations.ShiftsByRegisterComplete := by
  intro s rd rs1 rs2
  rw [← shamt6_eq_mod]
  refine ⟨⟨?_, ?_⟩, ⟨?_, ?_⟩, ⟨?_, ?_⟩⟩
  · exact encodes_layoutR (name := "sll") (intRegRows_subset (by simp [intRegRows])) (by decide) rfl
  · exact completesWith_of_exec_of_eq rfl (shiftLeft_eq_wrap64 ..)
  · exact encodes_layoutR (name := "srl") (intRegRows_subset (by simp [intRegRows])) (by decide) rfl
  · exact completesWith_of_exec_of_eq rfl (ushiftRight_eq_wrap64 ..)
  · exact encodes_layoutR (name := "sra") (intRegRows_subset (by simp [intRegRows])) (by decide) rfl
  · exact completesWith_of_exec_of_eq rfl (sshiftRight_eq_wrap64 ..)

end Sys2Proof.Machine
end

section
/-!
SUPPORT. FENCE.I of `spec/44_fence.md` (R201): no byte is in an empty set S, so each is fetched with its current content.
-/

namespace Sys2Proof.Machine

theorem State.inStored_of_stored_eq_nil {s : State} (h : s.stored = []) (a : Word) : s.inStored a = false := by
  rw [State.inStored, h, List.any_nil]

/-- Settles O23: FENCE.I empties S and advances, and does nothing else. -/
theorem fenceIEmptiesTheStoredSet : Obligations.FenceIEmptiesTheStoredSet := by
  intro s
  have hexec : exec .fenceI s = .next s.syncFetch.advance := rfl
  have hempty : s.syncFetch.advance.stored = [] := by simp
  have hfetch : ∀ a : Word, s.syncFetch.advance.fetchByte a = s.syncFetch.advance.readByte a :=
    fun a => State.fetchByte_of_not_inStored (State.inStored_of_stored_eq_nil hempty a)
  have hmem : ∀ a : Word, s.syncFetch.advance.readByte a = s.readByte a := State.readByte_congr (by simp)
  have hregs : SameRegisters s s.syncFetch.advance := State.readX_congr (by simp)
  have hcontrol : SameControl s s.syncFetch.advance := ⟨by simp, by simp, by simp, by simp, by simp⟩
  exact ⟨encodes_of_encode_eq rfl rfl, _, hexec, hempty, hfetch, hmem, by simp, hregs, hcontrol⟩

end Sys2Proof.Machine
end

section
/-!
SUPPORT. The CSR instructions of `spec/45_csr.md` (R211, R213 to R221): a number names one CSR, `CSRCheck` answers it exactly
where the rules allow the access, and each instruction is one read-modify-write.
-/

namespace Sys2Proof.Machine

/-! ## Numbers (R330) -/

theorem Csr.find?_number (c : Csr) : allCsrs.find? (fun d => d.number == c.number) = some c := by
  cases c <;> rfl

theorem Csr.number_injective {c d : Csr} (h : c.number = d.number) : c = d :=
  Option.some.inj (by rw [← c.find?_number, ← d.find?_number, h])

theorem State.csrNumbered_eq_some_iff {s : State} {n : CsrNumber} {c : Csr} :
    s.csrNumbered n = some c ↔ s.cfg.trapModel = .privileged ∧ c.number = n ∧ c.present s.cfg = true := by
  have hprivileged : s.privileged = true ↔ s.cfg.trapModel = .privileged := beq_iff_eq
  unfold State.csrNumbered
  rw [← hprivileged]
  constructor
  · intro h
    split at h
    next hp => exact ⟨hp, by simpa using List.find?_some h⟩
    next => cases h
  · rintro ⟨hp, rfl, hc⟩
    have hmem : c ∈ allCsrs := List.mem_of_find?_eq_some c.find?_number
    obtain ⟨d, hd⟩ : ∃ d, allCsrs.find? (fun d => d.number == c.number && d.present s.cfg) = some d :=
      Option.isSome_iff_exists.1 (List.find?_isSome.2 ⟨c, hmem, by simp [hc]⟩)
    obtain ⟨hnumber, -⟩ : d.number = c.number ∧ d.present s.cfg = true := by simpa using List.find?_some hd
    rw [if_pos hp, hd, Csr.number_injective hnumber]

/-! ## The access check (R211) -/

theorem State.csrCheck_eq_some_iff {s : State} {n : CsrNumber} {w : Bool} {c : Csr} :
    s.csrCheck n w = some c ↔ c.number = n ∧ CsrAllowed s c w := by
  constructor
  · intro h
    unfold State.csrCheck at h
    split at h
    next => cases h
    next d hd =>
      obtain ⟨hp, rfl, hpresent⟩ := State.csrNumbered_eq_some_iff.1 hd
      simp only [Option.ite_none_left_eq_some, Option.some.injEq] at h
      obtain ⟨hlevel, hwrites, hsatp, rfl⟩ := h
      exact ⟨rfl, hp, hpresent, by omega, by simpa using hwrites, by simpa [and_assoc] using hsatp⟩
  · rintro ⟨rfl, hp, hpresent, hlevel, hwrites, hsatp⟩
    unfold State.csrCheck
    simp only [State.csrNumbered_eq_some_iff.2 ⟨hp, rfl, hpresent⟩]
    rw [if_neg (by omega), if_neg (by simpa using hwrites), if_neg (by simpa [and_assoc] using hsatp)]

theorem CsrAllowed.not_csrDenied {s : State} {c : Csr} {w : Bool} (h : CsrAllowed s c w) :
    ¬ CsrDenied s c.number w := by
  obtain ⟨hp, hpresent, hlevel, hwrites, hsatp⟩ := h
  rintro ((hterminal | habsent) | hhigh | ⟨hw, hreadOnly⟩ | ⟨hn, hs, htvm⟩)
  · cases hterminal.symm.trans hp
  · cases (habsent c rfl).symm.trans hpresent
  · omega
  · exact hwrites hw hreadOnly
  · exact hsatp ⟨Csr.number_injective (d := .satp) hn, hs, htvm⟩

theorem State.csrCheck_eq_none {s : State} {n : CsrNumber} {w : Bool} (h : CsrDenied s n w) :
    s.csrCheck n w = none := by
  refine Option.eq_none_iff_forall_ne_some.2 fun c hc => ?_
  obtain ⟨rfl, hallowed⟩ := State.csrCheck_eq_some_iff.1 hc
  exact hallowed.not_csrDenied h

/-! ## The instructions -/

/-- An instruction that is one read-modify-write follows the rule of R213 to R218. -/
theorem csrRule_of_exec {i : Instr} {s : State} {n : CsrNumber} {rd : Reg} {w : Bool} {f : Word → Word}
    (hexec : exec i s = s.csrAccess i rd n w f) : CsrRule i s n rd w f where
  completes c hn hc := by
    have hnext : exec i s =
        .next ((if w then s.csrWrite c (f (s.csrRead c)) else s).writeX rd (s.csrRead c)).advance := by
      simp only [hexec, State.csrAccess, State.csrCheck_eq_some_iff.2 ⟨hn, hc⟩]
    cases w with
    | false =>
      exact ⟨_, hnext, writesRegister_writeX s rd _ _, by simp, by simp, ⟨State.readByte_congr (by simp), by simp⟩,
        by simp, by simp, by simp, by simp⟩
    | true =>
      exact ⟨_, hnext, writesRegister_writeX (s.csrWrite c _) rd _ _, by simp, by simp,
        ⟨State.readByte_congr (by simp), by simp⟩, by simp, by simp, by simp, by simp⟩
  denied h := by
    simp only [RaisesIllegal, hexec, State.csrAccess, State.csrCheck_eq_none h]
    exact State.raises_raise ..

/-- An encoding of the I format whose operands the instruction takes in another order (R104). -/
theorem encodes_layoutI_of_encode {i : Instr} {pattern : InstWord} {rd rs1 : Reg} {imm : BitVec 12} {f3 : BitVec 3}
    {op : BitVec 7} (henc : encode i = encIType pattern rd rs1 imm) (hpattern : pattern = layoutI 0#12 0#5 f3 0#5 op)
    (hwf : i.wellFormed = true) : Encodes (layoutI imm rs1 f3 rd op) i :=
  encodes_of_encode_eq (by rw [henc, hpattern, encIType_layoutI]) hwf

theorem zext64_eq_wrap64 {n : Nat} (v : BitVec n) : zext64 v = wrap64 v.toNat := by
  rw [wrap64, BitVec.ofInt_natCast, BitVec.ofNat_toNat]
  rfl

/-- Settles O31: each instruction is a read-modify-write, of which `csrRule_of_exec` gives both clauses. -/
theorem csrInstructionsFollowTheirRules : Obligations.CsrInstructionsFollowTheirRules := by
  intro s rd rs1 n uimm
  have hwrites : ∀ field : BitVec 5, decide (field ≠ 0#5) = (field != 0) := fun field => by
    rw [Bool.eq_iff_iff]
    simp
  simp only [← zext64_eq_wrap64, hwrites]
  refine ⟨⟨?_, ?_⟩, ⟨?_, ?_⟩, ⟨?_, ?_⟩, ⟨?_, ?_⟩, ⟨?_, ?_⟩, ⟨?_, ?_⟩⟩
  · exact encodes_layoutI_of_encode rfl (by decide) rfl
  · exact csrRule_of_exec rfl
  · exact encodes_layoutI_of_encode rfl (by decide) rfl
  · exact csrRule_of_exec rfl
  · exact encodes_layoutI_of_encode rfl (by decide) rfl
  · exact csrRule_of_exec rfl
  · exact encodes_layoutI_of_encode rfl (by decide) rfl
  · exact csrRule_of_exec rfl
  · exact encodes_layoutI_of_encode rfl (by decide) rfl
  · exact csrRule_of_exec rfl
  · exact encodes_layoutI_of_encode rfl (by decide) rfl
  · exact csrRule_of_exec rfl

end Sys2Proof.Machine
end

section
/-!
SUPPORT. What `CSRWrite` does (`spec/45_csr.md` R212 with the masks of `spec/60_exceptions.md` R331 to R339): bit by bit to the
CSR written, `mstatus` and the views included, and nothing to a CSR that shows other storage.
-/

namespace Sys2Proof.Machine

/-! ## Other CSRs -/

theorem State.csrRead_congr {s t : State} (hcsr : t.csr = s.csr) (hcfg : t.cfg = s.cfg) (c : Csr) :
    t.csrRead c = s.csrRead c := by
  obtain ⟨⟩ := s
  obtain ⟨⟩ := t
  cases hcsr
  cases hcfg
  rfl

/-- A write updates one field of the CSR file or none, and for every pair of CSRs that `showsWriteOf` keeps apart the read
uses other fields. -/
theorem State.csrRead_csrWrite_other {s : State} {c d : Csr} (v : Word) (h : showsWriteOf c d = false) :
    (s.csrWrite c v).csrRead d = s.csrRead d := by
  cases c
  case satp | misa | mvendorid | marchid | mimpid | mhartid => rfl
  all_goals cases d <;> cases h <;> rfl

/-- Settles O34. -/
theorem csrWriteTouchesOneStorage : Obligations.CsrWriteTouchesOneStorage :=
  fun _ _ _ v => ⟨State.csrRead_csrWrite_other v, State.readX_congr rfl, ⟨State.readByte_congr rfl, rfl⟩, rfl, rfl⟩

/-! ## Writes through a mask -/

/-- What a write does to one bit: where it is writable the new bit is the written one, elsewhere the old one. -/
def TakesWrittenBit (writable : Prop) (new written old : Bool) : Prop :=
  (writable → new = written) ∧ (¬ writable → new = old)

/-- A view that shows every bit writable through it. -/
theorem TakesWrittenBit.and_view {writable : Prop} {new written old view : Bool}
    (h : TakesWrittenBit writable new written old) (hview : writable → view = true) :
    TakesWrittenBit writable (new && view) written (old && view) := by
  obtain ⟨htaken, hkept⟩ := h
  exact ⟨fun hw => by rw [htaken hw, hview hw, Bool.and_true], fun hw => by rw [hkept hw]⟩

theorem getLsbD_maskedWrite (m old v : Word) {k : Nat} (hk : k < 64) :
    (maskedWrite m old v).getLsbD k = if m.getLsbD k = true then v.getLsbD k else old.getLsbD k := by
  simp only [maskedWrite, BitVec.getLsbD_or, BitVec.getLsbD_and, BitVec.getLsbD_not, hk, decide_true, Bool.true_and]
  cases m.getLsbD k <;> simp

theorem viewWrite_eq_maskedWrite (m old v : Word) : viewWrite m old v = maskedWrite m old v :=
  BitVec.or_comm ..

theorem takesWrittenBit_maskedWrite {m old v : Word} {k : Nat} {writable : Prop} (hk : k < 64)
    (hm : m.getLsbD k = true ↔ writable) :
    TakesWrittenBit writable ((maskedWrite m old v).getLsbD k) (v.getLsbD k) (old.getLsbD k) := by
  rw [getLsbD_maskedWrite m old v hk, ← hm]
  exact ⟨fun h => if_pos h, fun h => if_neg h⟩

theorem getLsbD_not_three {k : Nat} (hk : k < 64) : (~~~3#64).getLsbD k = true ↔ 2 ≤ k := by
  revert k
  decide

/-- BASE of a trap vector is written whatever MODE is written (R333). -/
theorem takesWrittenBit_tvecWrite {old v : Word} {k : Nat} (hk : k < 64) (hmode : ¬ (k = 0 ∨ k = 1)) :
    TakesWrittenBit (2 ≤ k) ((tvecWrite old v).getLsbD k) (v.getLsbD k) (old.getLsbD k) := by
  unfold tvecWrite
  split
  · exact takesWrittenBit_maskedWrite hk (getLsbD_not_three hk)
  · exact ⟨fun _ => rfl, fun h => by omega⟩

/-! ## The masks of the delegation and interrupt registers (R337, R338) -/

theorem getLsbD_medelegMask {k : Nat} (hk : k < 64) :
    medelegMask.getLsbD k = true ↔ k ≤ 9 ∨ k = 12 ∨ k = 13 ∨ k = 15 := by
  revert k
  decide

theorem getLsbD_sedelegMask {k : Nat} (hk : k < 64) :
    sedelegMask.getLsbD k = true ↔ k ≤ 8 ∨ k = 12 ∨ k = 13 ∨ k = 15 := by
  revert k
  decide

theorem getLsbD_sidelegMask {k : Nat} (hk : k < 64) : sidelegMask.getLsbD k = true ↔ k = 0 ∨ k = 4 ∨ k = 8 := by
  revert k
  decide

theorem getLsbD_interruptBits (cfg : Config) {k : Nat} (hk : k < 64) :
    (interruptBits cfg).getLsbD k = true ↔
      k = 3 ∨ k = 7 ∨ k = 11 ∨ (cfg.hasS = true ∧ (k = 1 ∨ k = 5 ∨ k = 9)) ∨
        (userTraps cfg = true ∧ (k = 0 ∨ k = 4 ∨ k = 8)) := by
  unfold interruptBits
  generalize cfg.hasS = hasS, userTraps cfg = users
  revert k
  cases hasS <;> cases users <;> decide

/-- The mask of `mideleg`, which is the mask of `mip` too. -/
theorem getLsbD_midelegMask (cfg : Config) {k : Nat} (hk : k < 64) :
    (midelegMask cfg).getLsbD k = true ↔
      (cfg.hasS = true ∧ (k = 1 ∨ k = 5 ∨ k = 9)) ∨ (userTraps cfg = true ∧ (k = 0 ∨ k = 4 ∨ k = 8)) := by
  unfold midelegMask interruptBits
  generalize cfg.hasS = hasS, userTraps cfg = users
  revert k
  cases hasS <;> cases users <;> decide

theorem getLsbD_supervisorView (s : State) {k : Nat} (hk : k < 64) :
    s.supervisorView.getLsbD k = true ↔ InMideleg s k ∧ (k = 0 ∨ k = 1 ∨ k = 4 ∨ k = 5 ∨ k = 8 ∨ k = 9) := by
  have hbits : ∀ k, k < 64 →
      ((0x333#64).getLsbD k = true ↔ k = 0 ∨ k = 1 ∨ k = 4 ∨ k = 5 ∨ k = 8 ∨ k = 9) := by decide
  rw [State.supervisorView, BitVec.getLsbD_and, Bool.and_eq_true, hbits k hk, inMideleg_iff, and_comm]

theorem getLsbD_userView (s : State) {k : Nat} (hk : k < 64) :
    s.userView.getLsbD k = true ↔ InMideleg s k ∧ InSideleg s k ∧ (k = 0 ∨ k = 4 ∨ k = 8) := by
  have hbits : ∀ k, k < 64 → ((0x111#64).getLsbD k = true ↔ k = 0 ∨ k = 4 ∨ k = 8) := by decide
  rw [State.userView, BitVec.getLsbD_and, BitVec.getLsbD_and, Bool.and_eq_true, Bool.and_eq_true, hbits k hk,
    inMideleg_iff, inSideleg_iff]
  tauto

theorem getLsbD_sipMask (s : State) {k : Nat} (hk : k < 64) :
    s.sipMask.getLsbD k = true ↔ InMideleg s k ∧ (k = 0 ∨ k = 1 ∨ k = 8) := by
  have hbits : ∀ k, k < 64 → ((0x103#64).getLsbD k = true ↔ k = 0 ∨ k = 1 ∨ k = 8) := by decide
  rw [State.sipMask, BitVec.getLsbD_and, Bool.and_eq_true, hbits k hk, getLsbD_supervisorView s hk]
  tauto

theorem getLsbD_uipMask (s : State) {k : Nat} (hk : k < 64) :
    s.uipMask.getLsbD k = true ↔ InMideleg s k ∧ InSideleg s k ∧ k = 0 := by
  have hbits : ∀ k, k < 64 → ((0x001#64).getLsbD k = true ↔ k = 0) := by decide
  rw [State.uipMask, BitVec.getLsbD_and, Bool.and_eq_true, hbits k hk, getLsbD_userView s hk]
  tauto

/-! ## mstatus bit by bit (R331) -/

theorem getLsbD_bitAt (b : Bool) {j k : Nat} (hk : k < 64) : (bitAt b j).getLsbD k = (b && decide (k = j)) := by
  cases b with
  | false => simp [bitAt]
  | true =>
    show (BitVec.twoPow 64 j).getLsbD k = decide (k = j)
    rw [BitVec.getLsbD_twoPow, ← Bool.decide_and, decide_eq_decide]
    omega

/-- MPP at its place: bit 11 tells U from the other modes, bit 12 tells M. -/
theorem getLsbD_mppField (y : Mode) {k : Nat} (hk : k < 64) :
    (BitVec.ofNat 64 y.code <<< 11).getLsbD k =
      ((decide (k = 11) && decide (y ≠ .u)) || (decide (k = 12) && decide (y = .m))) := by
  revert k
  cases y <;> decide

/-- The bit of `mstatus` at each place, from the fields and the modes that exist (R331). -/
def Mstatus.bit (cfg : Config) (f : Mstatus) : Nat → Bool
  | 0 => f.uie
  | 1 => f.sie
  | 3 => f.mie
  | 4 => f.upie
  | 5 => f.spie
  | 7 => f.mpie
  | 8 => f.spp
  | 11 => decide (f.mpp ≠ .u)
  | 12 => decide (f.mpp = .m)
  | 17 => f.mprv
  | 18 => f.sum
  | 19 => f.mxr
  | 20 => f.tvm
  | 21 => f.tw
  | 22 => f.tsr
  | 33 => cfg.hasU
  | 35 => cfg.hasS
  | _ => false

theorem Mstatus.getLsbD_layout (cfg : Config) (f : Mstatus) {k : Nat} (hk : k < 64) :
    (f.layout cfg).getLsbD k = f.bit cfg k := by
  simp only [Mstatus.layout, BitVec.getLsbD_or, getLsbD_bitAt _ hk, getLsbD_mppField _ hk]
  unfold Mstatus.bit
  split <;> simp_all

theorem Mstatus.getLsbD_toWord (cfg : Config) (f : Mstatus) {k : Nat} (hk : k < 64) :
    (f.toWord cfg).getLsbD k = (f.hardwire cfg).bit cfg k :=
  Mstatus.getLsbD_layout cfg _ hk

/-- What is read after a write: the fields of the written word, the hardwired ones at their fixed values. -/
theorem Mstatus.toWord_write (cfg : Config) (f : Mstatus) (w : Word) :
    (f.write cfg w).toWord cfg = (Mstatus.ofWord cfg f.mpp w).toWord cfg := by
  rw [Mstatus.write, Mstatus.toWord, Mstatus.hardwire_hardwire, Mstatus.toWord]

/-- Place by place: the field there is writable where its mode or extension exists, and reads 0 before and after the write
where it does not. -/
theorem State.takesWrittenBit_mstatus (s : State) (w : Word) {k : Nat} (hk : k < 64)
    (hmpp : ¬ legalisedField .mstatus k) :
    TakesWrittenBit (writableBits s .mstatus k) (((s.csr.mstatus.write s.cfg w).toWord s.cfg).getLsbD k) (w.getLsbD k)
      ((s.csr.mstatus.toWord s.cfg).getLsbD k) := by
  rw [Mstatus.toWord_write, Mstatus.getLsbD_toWord _ _ hk, Mstatus.getLsbD_toWord _ _ hk]
  simp only [legalisedField, not_or] at hmpp
  simp only [TakesWrittenBit, writableBits]
  unfold Mstatus.bit
  split <;> simp_all [Mstatus.hardwire, Mstatus.ofWord]

/-! ## MPP when it is written as it reads -/

theorem Mode.ofCode_code (y : Mode) : Mode.ofCode (BitVec.ofNat 2 y.code) = some y := by
  cases y <;> rfl

theorem Mstatus.extractLsb'_toWord (cfg : Config) (f : Mstatus) :
    (f.toWord cfg).extractLsb' 11 2 = BitVec.ofNat 2 (mppHolds cfg f.mpp).code := by
  have hcode : ∀ y : Mode, ∀ i, i < 2 →
      (if i = 0 then decide (y ≠ .u) else decide (y = .m)) = (BitVec.ofNat 2 y.code).getLsbD i := by
    intro y
    cases y <;> decide
  refine BitVec.eq_of_getLsbD_eq fun i hi => ?_
  rw [← hcode _ i hi, BitVec.getLsbD_extractLsb', Mstatus.getLsbD_toWord _ _ (by omega)]
  obtain rfl | rfl : i = 0 ∨ i = 1 := by omega
  · rfl
  · rfl

theorem mppHolds_legalMpp_toWord (cfg : Config) (f : Mstatus) :
    mppHolds cfg (legalMpp cfg f.mpp ((f.toWord cfg).extractLsb' 11 2)) = mppHolds cfg f.mpp := by
  rw [Mstatus.extractLsb'_toWord, legalMpp, Mode.ofCode_code]
  simp only
  split
  · exact mppHolds_mppHolds cfg _
  · rfl

/-- A view that does not show MPP writes it as it reads. -/
theorem Mstatus.extractLsb'_viewWrite (cfg : Config) (f : Mstatus) {mask : Word} (v : Word)
    (hmask : mask.extractLsb' 11 2 = 0#2) :
    (viewWrite mask (f.toWord cfg) v).extractLsb' 11 2 = (f.toWord cfg).extractLsb' 11 2 := by
  refine BitVec.eq_of_getLsbD_eq fun i hi => ?_
  have hbit : mask.getLsbD (11 + i) = false := by
    have := congrArg (fun b => b.getLsbD i) hmask
    simpa [BitVec.getLsbD_extractLsb', hi] using this
  rw [BitVec.getLsbD_extractLsb', BitVec.getLsbD_extractLsb', viewWrite_eq_maskedWrite,
    getLsbD_maskedWrite _ _ _ (by omega), hbit]
  rfl

/-! ## The views of mstatus (R332) -/

/-- A write through a view of `mstatus` that does not show MPP, at every bit of `mstatus`: of the writable bits it takes
those the view shows. -/
theorem State.takesWrittenBit_mstatus_viewWrite (s : State) {mask : Word} (v : Word) {k : Nat} (hk : k < 64)
    (hmask : mask.extractLsb' 11 2 = 0#2) :
    TakesWrittenBit (mask.getLsbD k = true ∧ writableBits s .mstatus k)
      (((s.csr.mstatus.write s.cfg (viewWrite mask (s.csr.mstatus.toWord s.cfg) v)).toWord s.cfg).getLsbD k)
      (v.getLsbD k) ((s.csr.mstatus.toWord s.cfg).getLsbD k) := by
  by_cases hmpp : legalisedField .mstatus k
  · have hnot : ¬ writableBits s .mstatus k := by
      rcases hmpp with rfl | rfl <;> simp [writableBits]
    have hkeeps := mppHolds_legalMpp_toWord s.cfg s.csr.mstatus
    rw [← s.csr.mstatus.extractLsb'_viewWrite s.cfg v hmask] at hkeeps
    refine ⟨fun ⟨_, hw⟩ => absurd hw hnot, fun _ => ?_⟩
    rw [Mstatus.toWord_write, Mstatus.getLsbD_toWord _ _ hk, Mstatus.getLsbD_toWord _ _ hk]
    rcases hmpp with rfl | rfl
    · exact congrArg (fun y => decide (y ≠ Mode.u)) hkeeps
    · exact congrArg (fun y => decide (y = Mode.m)) hkeeps
  · have hbit := getLsbD_maskedWrite mask (s.csr.mstatus.toWord s.cfg) v hk
    rw [← viewWrite_eq_maskedWrite] at hbit
    obtain ⟨htaken, hkept⟩ := s.takesWrittenBit_mstatus (viewWrite mask (s.csr.mstatus.toWord s.cfg) v) hk hmpp
    refine ⟨fun ⟨hm, hw⟩ => by rw [htaken hw, hbit, if_pos hm], fun h => ?_⟩
    by_cases hw : writableBits s .mstatus k
    · rw [htaken hw, hbit, if_neg fun hm => h ⟨hm, hw⟩]
    · exact hkept hw

theorem writableBits_sstatus_iff (s : State) {k : Nat} (hk : k < 64) :
    sstatusMask.getLsbD k = true ∧ writableBits s .mstatus k ↔ writableBits s .sstatus k := by
  simp only [writableBits]
  generalize userTraps s.cfg = users, s.cfg.hasS = hasS, s.cfg.hasU = hasU
  revert k
  cases users <;> cases hasS <;> cases hasU <;> decide

theorem getLsbD_ustatusMask {k : Nat} (hk : k < 64) : ustatusMask.getLsbD k = true ↔ k = 0 ∨ k = 4 := by
  revert k
  decide

theorem writableBits_ustatus_iff (s : State) {k : Nat} (hk : k < 64) :
    ustatusMask.getLsbD k = true ∧ writableBits s .mstatus k ↔ writableBits s .ustatus k := by
  simp only [writableBits]
  generalize userTraps s.cfg = users, s.cfg.hasS = hasS, s.cfg.hasU = hasU
  revert k
  cases users <;> cases hasS <;> cases hasU <;> decide

/-! ## Every CSR -/

theorem State.takesWrittenBit_csrWrite (s : State) (c : Csr) (v : Word) {k : Nat} (hk : k < 64)
    (hlegal : ¬ legalisedField c k) :
    TakesWrittenBit (writableBits s c k) (((s.csrWrite c v).csrRead c).getLsbD k) (v.getLsbD k)
      ((s.csrRead c).getLsbD k) := by
  cases c
  case mstatus => exact s.takesWrittenBit_mstatus v hk hlegal
  case sstatus =>
    have hbit := s.takesWrittenBit_mstatus_viewWrite (mask := sstatusMask) v hk (by decide)
    simp only [State.csrRead, BitVec.getLsbD_and, ← writableBits_sstatus_iff s hk]
    exact hbit.and_view And.left
  case ustatus =>
    have hbit := s.takesWrittenBit_mstatus_viewWrite (mask := ustatusMask) v hk (by decide)
    simp only [State.csrRead, BitVec.getLsbD_and, ← writableBits_ustatus_iff s hk]
    exact hbit.and_view And.left
  case mtvec | stvec | utvec => exact takesWrittenBit_tvecWrite hk hlegal
  case mepc | sepc | uepc => exact takesWrittenBit_maskedWrite hk (getLsbD_not_three hk)
  case mcause | scause | ucause | mtval | stval | utval | mscratch | sscratch | uscratch =>
    exact ⟨fun _ => rfl, fun h => absurd trivial h⟩
  case medeleg => exact takesWrittenBit_maskedWrite hk (getLsbD_medelegMask hk)
  case sedeleg => exact takesWrittenBit_maskedWrite hk (getLsbD_sedelegMask hk)
  case mideleg | mip => exact takesWrittenBit_maskedWrite hk (getLsbD_midelegMask s.cfg hk)
  case sideleg => exact takesWrittenBit_maskedWrite hk (getLsbD_sidelegMask hk)
  case mie => exact takesWrittenBit_maskedWrite hk (getLsbD_interruptBits s.cfg hk)
  case sie =>
    have hshown := getLsbD_supervisorView s hk
    simp only [State.csrRead, BitVec.getLsbD_and]
    exact (takesWrittenBit_maskedWrite hk hshown).and_view hshown.2
  case uie =>
    have hshown := getLsbD_userView s hk
    simp only [State.csrRead, BitVec.getLsbD_and]
    exact (takesWrittenBit_maskedWrite hk hshown).and_view hshown.2
  case sip =>
    simp only [State.csrRead, BitVec.getLsbD_and]
    refine (takesWrittenBit_maskedWrite hk (getLsbD_sipMask s hk)).and_view fun ⟨hm, hbit⟩ => ?_
    exact (getLsbD_supervisorView s hk).2 ⟨hm, by omega⟩
  case uip =>
    simp only [State.csrRead, BitVec.getLsbD_and]
    refine (takesWrittenBit_maskedWrite hk (getLsbD_uipMask s hk)).and_view fun ⟨hm, hs, hbit⟩ => ?_
    exact (getLsbD_userView s hk).2 ⟨hm, hs, .inl hbit⟩
  case satp | misa | mvendorid | marchid | mimpid | mhartid => exact ⟨False.elim, fun _ => rfl⟩

/-- Settles O32. -/
theorem csrWriteChangesWritableBitsOnly : Obligations.CsrWriteChangesWritableBitsOnly :=
  fun s c v _ _ hk hlegal => s.takesWrittenBit_csrWrite c v hk hlegal

end Sys2Proof.Machine
end

section
/-!
SUPPORT. What U-mode can change of the CSRs (`spec/45_csr.md` R211, `spec/60_exceptions.md` R321, R330, R332, R338): a CSR
instruction there writes a user CSR, and a trap or a trap return that stays in U-mode writes the user's registers.
-/

namespace Sys2Proof.Machine

/-! ## What is kept -/

/-- The supervisor and machine CSRs that share storage with a user CSR (R332, R338). -/
def sharedWithUser : List Csr := [.mstatus, .sstatus, .mie, .sie, .mip, .sip]

/-- The supervisor and machine CSRs of `s` read the same in `t`, but for the bits of `mstatus`, `mie` and `mip` that U-mode
shares. -/
structure KeepsHigherState (s t : State) : Prop where
  registers : ∀ c ∈ supervisorCsrs ++ machineCsrs, c ∉ sharedWithUser → t.csrRead c = s.csrRead c
  status : ∀ k, k ≠ 0 → k ≠ 4 → (t.csrRead .mstatus).getLsbD k = (s.csrRead .mstatus).getLsbD k
  interrupts : ∀ k, ¬ (InMideleg s k ∧ InSideleg s k ∧ (k = 0 ∨ k = 4 ∨ k = 8)) →
    t.csr.mie.getLsbD k = s.csr.mie.getLsbD k ∧ t.csr.mip.getLsbD k = s.csr.mip.getLsbD k

theorem KeepsHigherState.refl (s : State) : KeepsHigherState s s :=
  ⟨fun _ _ _ => rfl, fun _ _ _ => rfl, fun _ _ => ⟨rfl, rfl⟩⟩

theorem KeepsHigherState.congr {s t u : State} (h : KeepsHigherState s t) (hcsr : u.csr = t.csr)
    (hcfg : u.cfg = t.cfg) : KeepsHigherState s u where
  registers c hc hshared := (State.csrRead_congr hcsr hcfg c).trans (h.registers c hc hshared)
  status k h0 h4 := by rw [State.csrRead_congr hcsr hcfg, h.status k h0 h4]
  interrupts k hk := by
    rw [hcsr]
    exact h.interrupts k hk

/-- Words agree at a bit they do not have. -/
theorem getLsbD_eq_of_lt {v w : Word} {k : Nat} (h : k < 64 → v.getLsbD k = w.getLsbD k) :
    v.getLsbD k = w.getLsbD k := by
  by_cases hk : k < 64
  · exact h hk
  · rw [BitVec.getLsbD_of_ge v k (by omega), BitVec.getLsbD_of_ge w k (by omega)]

/-! ## Writing a user CSR -/

/-- A number of privilege level 0 belongs to a user CSR (R211 (b), R330). -/
theorem CsrAllowed.mem_userCsrs {s : State} {c : Csr} {w : Bool} (h : CsrAllowed s c w) (hs : s.priv = .u) :
    c ∈ userCsrs := by
  obtain ⟨-, -, hlevel, -⟩ := h
  rw [hs] at hlevel
  revert hlevel
  cases c <;> decide

/-- A write through `uie` or `uip` keeps every bit that is not delegated to U-mode (R338). -/
theorem State.getLsbD_maskedWrite_of_not_delegated (s : State) {m : Word} (old v : Word) {k : Nat}
    (hm : within s.userView m) (hk : ¬ (InMideleg s k ∧ InSideleg s k ∧ (k = 0 ∨ k = 4 ∨ k = 8))) :
    (maskedWrite m old v).getLsbD k = old.getLsbD k :=
  getLsbD_eq_of_lt fun hlt => by
    rw [getLsbD_maskedWrite _ _ _ hlt, if_neg fun h => hk ((getLsbD_userView s hlt).1 (hm k h))]

theorem KeepsHigherState.csrWrite {s : State} {c : Csr} (hc : c ∈ userCsrs) (v : Word) :
    KeepsHigherState s (s.csrWrite c v) where
  registers d hd hshared := by
    have hother : ∀ c ∈ userCsrs, ∀ d ∈ supervisorCsrs ++ machineCsrs, d ∉ sharedWithUser →
        showsWriteOf c d = false := by decide
    exact State.csrRead_csrWrite_other v (hother c hc d hd hshared)
  status k h0 h4 := by
    by_cases hstatus : c = .ustatus
    · subst hstatus
      refine getLsbD_eq_of_lt fun hk => ?_
      refine (s.takesWrittenBit_mstatus_viewWrite (mask := ustatusMask) v hk (by decide)).2 fun ⟨hmask, _⟩ => ?_
      exact ((getLsbD_ustatusMask hk).1 hmask).elim h0 h4
    · have hother : ∀ c ∈ userCsrs, c ≠ .ustatus → showsWriteOf c .mstatus = false := by decide
      rw [State.csrRead_csrWrite_other v (hother c hc hstatus)]
  interrupts k hk := by
    have hmie : ∀ c ∈ userCsrs, c ≠ .uie → showsWriteOf c .mie = false := by decide
    have hmip : ∀ c ∈ userCsrs, c ≠ .uip → showsWriteOf c .mip = false := by decide
    constructor
    · by_cases huie : c = .uie
      · subst huie
        exact s.getLsbD_maskedWrite_of_not_delegated _ v (within_refl _) hk
      · exact congrArg (fun w : Word => w.getLsbD k) (State.csrRead_csrWrite_other v (hmie c hc huie))
    · by_cases huip : c = .uip
      · subst huip
        exact s.getLsbD_maskedWrite_of_not_delegated _ v (within_and_right _ _) hk
      · exact congrArg (fun w : Word => w.getLsbD k) (State.csrRead_csrWrite_other v (hmip c hc huip))

/-! ## Traps and trap returns in U-mode -/

/-- The CSR file with the registers that a trap into U-mode and URET write set to given values (R232, R341). -/
def CsrFile.withUserTrap (c : CsrFile) (uie upie : Bool) (uepc ucause utval : Word) : CsrFile :=
  { c with mstatus := { c.mstatus with uie := uie, upie := upie }, uepc := uepc, ucause := ucause, utval := utval }

theorem KeepsHigherState.withUserTrap (s : State) (uie upie : Bool) (uepc ucause utval : Word) :
    KeepsHigherState s { s with csr := s.csr.withUserTrap uie upie uepc ucause utval } where
  registers c hc hshared := by
    cases c
    case ustatus | uie | utvec | uscratch | uepc | ucause | utval | uip => exact absurd hc (by decide)
    case mstatus | sstatus | mie | sie | mip | sip => exact absurd (by decide) hshared
    all_goals rfl
  status k h0 h4 := by
    refine getLsbD_eq_of_lt fun hk => ?_
    simp only [State.csrRead, Mstatus.getLsbD_toWord _ _ hk]
    unfold Mstatus.bit
    split
    any_goals rfl
    · exact absurd rfl h0
    · exact absurd rfl h4
  interrupts _ _ := ⟨rfl, rfl⟩

theorem KeepsHigherState.takeTrap (s : State) (i : Bool) (c : Nat) (tval epc : Word) :
    KeepsHigherState s (s.takeTrap i c tval epc .u) :=
  (KeepsHigherState.withUserTrap s false s.csr.mstatus.uie (clearLow2 epc) (causeWord i c) tval).congr rfl rfl

theorem KeepsHigherState.trapReturn (s : State) : KeepsHigherState s (s.trapReturn .u) :=
  (KeepsHigherState.withUserTrap s s.csr.mstatus.upie true s.csr.uepc s.csr.ucause s.csr.utval).congr rfl rfl

/-! ## Every effect -/

/-- The handler of a trap is the mode the trap ends in, and SRET and MRET are no effects in U-mode. -/
theorem Effect.keepsHigherState {i : Instr} {s t : State} (h : Effect i s t) (hs : s.priv = .u) (ht : t.priv = .u) :
    KeepsHigherState s t := by
  cases h
  case csr rd n c v _ hc =>
    obtain ⟨-, hallowed⟩ := State.csrCheck_eq_some_iff.1 hc
    exact (KeepsHigherState.csrWrite (hallowed.mem_userCsrs hs) v).congr (by simp) (by simp)
  case ret y _ _ hy =>
    rcases hy with ⟨rfl, -⟩ | ⟨-, -, hne⟩ | ⟨-, hm⟩
    · exact .trapReturn s
    · exact absurd hs hne
    · cases hs.symm.trans hm
  case raise =>
    rw [State.takeTrap_priv] at ht
    rw [ht]
    exact .takeTrap ..
  case timeout =>
    rw [State.takeTrap_priv] at ht
    rw [ht]
    exact (KeepsHigherState.takeTrap s ..).congr rfl rfl
  all_goals exact (KeepsHigherState.refl s).congr (by simp) (by simp)

/-- Settles O57, effect by effect of the instruction. -/
theorem userModeCannotChangeHigherState : Obligations.UserModeCannotChangeHigherState := by
  intro i s t hs h ht
  obtain ⟨registers, status, interrupts⟩ := (exec_effect h).keepsHigherState hs ht
  exact ⟨registers, status, interrupts⟩

end Sys2Proof.Machine
end

section
/-!
SUPPORT. The environment and privileged instructions of `spec/46_system.md` (R230 to R236): ECALL and EBREAK raise, a trap
return does what R342 says for its mode, WFI waits, completes or times out, SFENCE.VMA advances.
-/

namespace Sys2Proof.Machine

/-! ## Raising and completing -/

theorem State.privileged_iff (s : State) : s.privileged = true ↔ s.cfg.trapModel = .privileged := beq_iff_eq

theorem raisesIllegal_of_exec {i : Instr} {s : State} (hexec : exec i s = s.illegal i) : RaisesIllegal i s := by
  rw [RaisesIllegal, hexec]
  exact State.raises_raise ..

/-- Under `privileged` a raise is a next state, that of the trap taken (R313). -/
theorem Raises.exists_next {o : Outcome} {s : State} {e : Exc} {v : Word} (h : Raises o s e v)
    (hp : s.cfg.trapModel = .privileged) : ∃ t, o = .next t := by
  obtain ⟨-, htrap⟩ := h
  obtain ⟨t, -, hnext, -⟩ := htrap hp
  exact ⟨t, hnext⟩

theorem completesAt_advance_of_exec {i : Instr} {s : State} (hexec : exec i s = .next s.advance) :
    CompletesAt i s (s.pc + 4) :=
  ⟨s.advance, hexec, rfl, State.readX_congr rfl, ⟨State.readByte_congr rfl, rfl⟩, rfl, rfl, rfl, rfl, rfl⟩

/-! ## ECALL (R230) -/

/-- The environment call of a mode (R230, R300). -/
def Mode.environmentCall : Mode → Exc
  | .u => .environmentCallFromUMode
  | .s => .environmentCallFromSMode
  | .m => .environmentCallFromMMode

theorem exec_ecall (s : State) : exec .ecall s = s.raise s.priv.environmentCall 0 := by
  show execEcall s = _
  unfold execEcall
  cases s.priv <;> rfl

theorem raises_ecall {s : State} {y : Mode} (hy : s.priv = y) : Raises (exec .ecall s) s y.environmentCall 0 := by
  rw [exec_ecall, hy]
  exact s.raises_raise _ _

/-! ## Trap returns (R232 to R234, R342) -/

theorem State.returnsTo_trapReturn (s : State) (y : Mode) :
    ReturnsTo s (s.trapReturn y) (s.csr.mstatus.returnMode s.cfg y) (s.csr.epc y) (s.csr.mstatus.leaveTrap s.cfg y) :=
  ⟨rfl, clearLow2_eq_roundDown4 _, rfl, State.readX_congr rfl, ⟨State.readByte_congr rfl, rfl⟩, rfl, rfl, rfl⟩

theorem exec_uret_eq (s : State) :
    exec .uret s =
      if s.cfg.trapModel = .privileged ∧ s.cfg.hasN = true ∧ s.cfg.hasU = true then .next (s.trapReturn .u)
      else s.illegal .uret :=
  if_congr (by rw [Bool.and_eq_true, s.privileged_iff, userTraps, Bool.and_eq_true]) rfl rfl

theorem exec_sret_eq (s : State) :
    exec .sret s =
      if s.cfg.trapModel = .privileged ∧ s.cfg.hasS = true ∧ (s.priv = .m ∨ s.priv = .s ∧ s.csr.mstatus.tsr = false) then
        .next (s.trapReturn .s)
      else s.illegal .sret := by
  refine if_congr ?_ rfl rfl
  rw [Bool.and_eq_true, Bool.and_eq_true, Bool.and_eq_true, s.privileged_iff, and_assoc, and_assoc]
  cases s.priv <;> simp

theorem exec_mret_eq (s : State) :
    exec .mret s =
      if s.cfg.trapModel = .privileged ∧ s.priv = .m then .next (s.trapReturn .m) else s.illegal .mret :=
  if_congr (by rw [Bool.and_eq_true, s.privileged_iff, beq_iff_eq]) rfl rfl

/-! ## WFI (R235) -/

theorem State.anyIrqPending_iff (s : State) :
    s.anyIrqPending = true ↔ s.cfg.trapModel = .privileged ∧ ∃ c, PendingEnabled s c := by
  have hall : ∀ c, c ∈ Irq.byPriority := fun c => by cases c <;> decide
  have hpending : ∀ c, s.irqPending c = true ↔ PendingEnabled s c := fun c => Bool.and_eq_true_iff
  rw [State.anyIrqPending, Bool.and_eq_true, s.privileged_iff, List.any_eq_true]
  simp only [hall, hpending, true_and]

theorem State.wfiKeeps_stall (s : State) : WfiKeeps s s.stall :=
  ⟨State.readX_congr rfl, ⟨State.readByte_congr rfl, rfl⟩, rfl, rfl, rfl⟩

/-- The WFI completes, or the hart stays at it, and then no enabled interrupt is pending. -/
theorem State.stall_completes_or_waits (s : State) :
    (s.stall.pc = s.pc + 4 ∧ s.stall.stalled = false) ∨
    (s.stall.pc = s.pc ∧ s.stall.stalled = true ∧
      ¬ (s.cfg.trapModel = .privileged ∧ ∃ c, PendingEnabled s c)) := by
  rw [← s.anyIrqPending_iff, State.stall_pc, State.stall_stalled]
  cases s.anyIrqPending with
  | true => simp
  | false => cases Config.freeWfiEnds s.draws <;> simp

theorem exec_wfi_eq (s : State) :
    exec .wfi s = if s.priv = .u ∧ s.cfg.wfiInU = false then s.illegal .wfi else s.waitForInterrupt :=
  if_congr (by rw [Bool.and_eq_true, beq_iff_eq, Bool.not_eq_true']) rfl rfl

theorem exec_wfi_of_permitted {s : State} (h : s.priv ≠ .u ∨ s.cfg.wfiInU = true) :
    exec .wfi s = s.waitForInterrupt := by
  refine (exec_wfi_eq s).trans (if_neg ?_)
  rcases h with h | h <;> simp [h]

/-- In M-mode, with TW = 0 and under `terminal` there is no time limit. -/
theorem State.waitForInterrupt_of_unlimited {s : State}
    (h : s.cfg.trapModel = .privileged → s.priv ≠ .m → s.csr.mstatus.tw = false) :
    s.waitForInterrupt = .next s.stall := by
  refine if_neg fun hc => ?_
  simp only [Bool.and_eq_true, bne_iff_ne, s.privileged_iff] at hc
  obtain ⟨⟨⟨hp, hm⟩, htw⟩, -⟩ := hc
  exact Bool.false_ne_true ((h hp hm).symm.trans htw)

/-- The trap of a WFI that reaches its time limit: the stall is over and one more free value is drawn. -/
theorem State.illegal_wfi_timeout {s : State} (hp : s.cfg.trapModel = .privileged) :
    ∃ t y, State.illegal { s with stalled := false, draws := s.draws + 1 } .wfi = .next t ∧
      HandlesException s 2 y ∧ t.priv = y ∧ t.stalled = false ∧
      TrapRegisters s t false 2 ((encode .wfi).setWidth 64) s.pc y ∧ SameRegisters s t ∧ SameMemory s t ∧
      t.cfg = s.cfg := by
  obtain ⟨-, htrap⟩ := State.raises_raise { s with stalled := false, draws := s.draws + 1 } .illegalInstruction
    (zext64 (encode .wfi))
  obtain ⟨t, y, hnext, hhandles, hpriv, hregisters, hx, hmem, hcfg, hstalled, -⟩ := htrap hp
  -- Neither the stall nor the counter of free values decides who handles a trap.
  have hsame : HandlesException s 2 y := { hhandles with }
  exact ⟨t, y, hnext, hsame, hpriv, hstalled, by cases y <;> exact hregisters, hx, hmem, hcfg⟩

/-- With a time limit the WFI goes on, or the IllegalInstruction trap is taken. -/
theorem State.waitForInterrupt_goes_on_or_times_out (s : State) :
    s.waitForInterrupt = .next s.stall ∨
    s.waitForInterrupt = State.illegal { s with stalled := false, draws := s.draws + 1 } .wfi := by
  unfold State.waitForInterrupt
  split
  · exact .inr rfl
  · exact .inl rfl

/-! ## SFENCE.VMA (R236) -/

/-- The format of SFENCE.VMA is R92's with `rd` = x0. -/
theorem encSfenceType_eq_encRType (p : InstWord) (rs1 rs2 : Reg) : encSfenceType p rs1 rs2 = encRType p 0#5 rs1 rs2 := by
  rw [encSfenceType, encRType, place_of_zero, BitVec.or_zero]

theorem encodes_sfenceVma (rs1 rs2 : Reg) :
    Encodes (layoutR 0b0001001#7 rs2 rs1 0b000#3 0#5 0b1110011#7) (.sfenceVma rs1 rs2) := by
  have hpattern : 0x12000073#32 = layoutR 0b0001001#7 0#5 0#5 0b000#3 0#5 0b1110011#7 := by decide
  exact encodes_of_encode_eq (by rw [encode, encSfenceType_eq_encRType, hpattern, encRType_layoutR]) rfl

theorem exec_sfenceVma_eq (s : State) (rs1 rs2 : Reg) :
    exec (.sfenceVma rs1 rs2) s =
      if s.cfg.hasS = false ∨ s.priv = .u ∨
        (s.cfg.trapModel = .privileged ∧ s.priv = .s ∧ s.csr.mstatus.tvm = true) then s.illegal (.sfenceVma rs1 rs2)
      else .next s.advance := by
  refine if_congr ?_ rfl rfl
  simp only [Bool.or_eq_true, Bool.and_eq_true, Bool.not_eq_true', beq_iff_eq, s.privileged_iff, or_assoc, and_assoc]

/-! ## The statements -/

/-- Settles O11: a cycle of a stalled hart is the WFI. -/
theorem stalledHartContinuesWfi : Obligations.StalledHartContinuesWfi :=
  fun _ hstalled => if_pos hstalled

/-- Settles O24: the privilege check decides between the raise and the advance. -/
theorem sfenceVmaChecksPrivilege : Obligations.SfenceVmaChecksPrivilege := by
  intro s rs1 rs2
  refine ⟨encodes_sfenceVma rs1 rs2, fun hs hu htvm => ?_, fun hdenied => ?_⟩
  · exact completesAt_advance_of_exec ((exec_sfenceVma_eq s rs1 rs2).trans (if_neg (by simp [hs, hu, htvm])))
  · exact raisesIllegal_of_exec ((exec_sfenceVma_eq s rs1 rs2).trans (if_pos hdenied))

/-- Settles O39: ECALL raises the environment call of the mode it runs in. -/
theorem ecallCallsTheEnvironment : Obligations.EcallCallsTheEnvironment :=
  ⟨encodes_of_encode_eq rfl rfl, rfl, rfl, rfl, fun _ => ⟨raises_ecall, raises_ecall, raises_ecall,
    (raises_ecall rfl).exists_next⟩⟩

/-- Settles O40: EBREAK is a raise with `pc` as value. -/
theorem ebreakRaisesBreakpoint : Obligations.EbreakRaisesBreakpoint := by
  have hraises : ∀ s : State, Raises (exec .ebreak s) s .breakpoint s.pc := fun s => s.raises_raise _ _
  exact ⟨encodes_of_encode_eq rfl rfl, rfl, fun s => ⟨hraises s, (hraises s).exists_next⟩⟩

/-- Settles O41: the trap return of mode U, or the raise where there are no user traps. -/
theorem uretReturnsToUserMode : Obligations.UretReturnsToUserMode := by
  refine ⟨encodes_of_encode_eq rfl rfl, fun s => ⟨fun hp hn hu => ?_, fun hdenied => ?_⟩⟩
  · exact ⟨_, (exec_uret_eq s).trans (if_pos ⟨hp, hn, hu⟩), s.returnsTo_trapReturn .u⟩
  · refine raisesIllegal_of_exec ((exec_uret_eq s).trans (if_neg ?_))
    rcases hdenied with h | h | h <;> simp [h]

/-- Settles O42: the trap return of mode S, or the raise where the mode or TSR forbids it. -/
theorem sretReturnsFromSupervisorTrap : Obligations.SretReturnsFromSupervisorTrap := by
  refine ⟨encodes_of_encode_eq rfl rfl, fun s => ⟨fun hp hs hmode => ?_, fun hdenied => ?_⟩⟩
  · exact ⟨_, (exec_sret_eq s).trans (if_pos ⟨hp, hs, hmode⟩), s.returnsTo_trapReturn .s⟩
  · refine raisesIllegal_of_exec ((exec_sret_eq s).trans (if_neg ?_))
    rcases hdenied with h | h | h | h <;> simp [h]

/-- Settles O43: the trap return of mode M, to MPP as it reads, or the raise below M-mode. -/
theorem mretReturnsFromMachineTrap : Obligations.MretReturnsFromMachineTrap := by
  refine ⟨encodes_of_encode_eq rfl rfl, fun s => ⟨fun hp hm => ?_, fun hdenied => ?_⟩⟩
  · exact ⟨_, (exec_mret_eq s).trans (if_pos ⟨hp, hm⟩), s.returnsTo_trapReturn .m⟩
  · refine raisesIllegal_of_exec ((exec_mret_eq s).trans (if_neg ?_))
    rcases hdenied with h | h <;> simp [h]

/-- Settles O44: a permitted WFI stalls or times out, and a stall with an enabled interrupt pending is over at once. -/
theorem wfiWaitsOrCompletes : Obligations.WfiWaitsOrCompletes := by
  refine ⟨encodes_of_encode_eq rfl rfl, fun s => ⟨fun hu hw => ?_, fun hpermitted hunlimited => ?_,
    fun hbelow hp _ => ?_⟩⟩
  · exact raisesIllegal_of_exec ((exec_wfi_eq s).trans (if_pos ⟨hu, hw⟩))
  · refine ⟨s.stall, (exec_wfi_of_permitted hpermitted).trans (State.waitForInterrupt_of_unlimited hunlimited),
      s.wfiKeeps_stall, ?_⟩
    rcases s.stall_completes_or_waits with hdone | ⟨hpc, hstalled, hnone⟩
    · exact ⟨.inl hdone, fun _ => hdone⟩
    · exact ⟨.inr ⟨hpc, hstalled⟩, fun hpending => absurd hpending hnone⟩
  · have hpermitted : s.priv ≠ .u ∨ s.cfg.wfiInU = true := by
      rcases hbelow with hs | ⟨-, hw⟩
      · exact .inl (by simp [hs])
      · exact .inr hw
    rw [exec_wfi_of_permitted hpermitted]
    rcases s.waitForInterrupt_goes_on_or_times_out with hstall | htimeout
    · refine ⟨s.stall, hstall, .inl ⟨s.wfiKeeps_stall, ?_⟩⟩
      exact s.stall_completes_or_waits.imp_right fun ⟨hpc, hstalled, hnone⟩ =>
        ⟨hpc, hstalled, fun hpending => hnone ⟨hp, hpending⟩⟩
    · obtain ⟨t, y, hnext, htrap⟩ := State.illegal_wfi_timeout hp
      exact ⟨t, htimeout.trans hnext, .inr ⟨y, htrap⟩⟩

end Sys2Proof.Machine
end

section
/-!
SUPPORT. Control transfer (`spec/48_control_transfer.md` R270 to R279): the encodings of the B and J formats, the target
of a jump or a taken branch as a word, and the two shared operations by the alignment of that target.
-/

namespace Sys2Proof.Machine

/-! ## The B format (R94, R101) and the J format (R95, R102) -/

theorem layoutB_eq_place (offset : BitVec 13) (rs2 rs1 : Reg) (f3 : BitVec 3) (op : BitVec 7) :
    layoutB offset rs2 rs1 f3 op =
      place (offset.extractLsb' 12 1) 31 ||| place (offset.extractLsb' 5 6) 25 ||| place rs2 20 ||| place rs1 15 |||
        place f3 12 ||| place (offset.extractLsb' 1 4) 8 ||| place (offset.extractLsb' 11 1) 7 ||| place op 0 := by
  rw [← place_zero (layoutB offset rs2 rs1 f3 op), layoutB]
  simp only [place_append]

/-- The encoder puts the operands where the layout has them. -/
theorem encBType_layoutB (offset : BitVec 13) (rs2 rs1 : Reg) (f3 : BitVec 3) (op : BitVec 7) :
    encBType (layoutB 0#13 0#5 0#5 f3 op) rs1 rs2 offset = layoutB offset rs2 rs1 f3 op := by
  simp only [encBType, layoutB_eq_place, BitVec.extractLsb'_zero, place_of_zero]
  generalize place (offset.extractLsb' 12 1) 31 = a, place (offset.extractLsb' 5 6) 25 = b, place rs2 20 = c,
    place rs1 15 = d, place f3 12 = e, place (offset.extractLsb' 1 4) 8 = f, place (offset.extractLsb' 11 1) 7 = g,
    place op 0 = h
  simp only [BitVec.zero_or, BitVec.or_zero]
  ac_rfl

theorem layoutJ_eq_place (offset : BitVec 21) (rd : Reg) (op : BitVec 7) :
    layoutJ offset rd op =
      place (offset.extractLsb' 20 1) 31 ||| place (offset.extractLsb' 1 10) 21 |||
        place (offset.extractLsb' 11 1) 20 ||| place (offset.extractLsb' 12 8) 12 ||| place rd 7 ||| place op 0 := by
  rw [← place_zero (layoutJ offset rd op), layoutJ]
  simp only [place_append]

theorem encJType_layoutJ (offset : BitVec 21) (rd : Reg) (op : BitVec 7) :
    encJType (layoutJ 0#21 0#5 op) rd offset = layoutJ offset rd op := by
  simp only [encJType, layoutJ_eq_place, BitVec.extractLsb'_zero, place_of_zero]
  generalize place (offset.extractLsb' 20 1) 31 = a, place (offset.extractLsb' 1 10) 21 = b,
    place (offset.extractLsb' 11 1) 20 = c, place (offset.extractLsb' 12 8) 12 = d, place rd 7 = e, place op 0 = f
  simp only [BitVec.zero_or]
  ac_rfl

/-- The offset of a branch has to be even, since no word holds its bit 0 (R101). -/
theorem encodes_layoutB {i : Instr} {pattern : InstWord} {rs1 rs2 : Reg} {offset : BitVec 13} {f3 : BitVec 3}
    {op : BitVec 7} (henc : encode i = encBType pattern rs1 rs2 offset)
    (hpattern : pattern = layoutB 0#13 0#5 0#5 f3 op) (hwf : i.wellFormed = true) :
    Encodes (layoutB offset rs2 rs1 f3 op) i :=
  encodes_of_encode_eq (by rw [henc, hpattern, encBType_layoutB]) hwf

theorem encodes_jal {rd : Reg} {offset : BitVec 21} (heven : offset.getLsbD 0 = false) :
    Encodes (layoutJ offset rd 0b1101111#7) (.jal rd offset) := by
  have hpattern : 0x0000006f#32 = layoutJ 0#21 0#5 0b1101111#7 := by decide
  have hwf : (!offset.getLsbD 0) = true := by rw [heven, Bool.not_false]
  exact encodes_of_encode_eq (by rw [encode, hpattern, encJType_layoutJ]) hwf

/-! ## Targets (R27, R271) -/

/-- The word sum that JAL and the branches compute is the target the rules write as an integer sum. -/
theorem relativeTarget_eq {n : Nat} (s : State) (offset : BitVec n) :
    relativeTarget s offset = s.pc + sext64 offset := by
  rw [relativeTarget, wrap64, BitVec.ofInt_add, BitVec.ofInt_natCast, BitVec.ofNat_toNat, BitVec.setWidth_eq]
  rfl

/-- Clearing bit 0 is rounding down to an even number. -/
theorem clearLow1_eq_ofNat (v : Word) : clearLow1 v = BitVec.ofNat 64 (v.toNat / 2 * 2) := by
  have hmask : ~~~1#64 = BitVec.allOnes 64 <<< 1 := by decide
  apply BitVec.eq_of_toNat_eq
  rw [clearLow1, hmask, ← BitVec.shiftLeft_ushiftRight]
  simp [Nat.shiftLeft_eq, Nat.shiftRight_eq_div_pow]

/-- The target of JALR (R271). -/
theorem jalrTarget_eq (base : Word) (displacement : BitVec 12) :
    BitVec.ofNat 64 ((wrap64 (base.toNat + displacement.toInt)).toNat / 2 * 2) =
      clearLow1 (base + sext64 displacement) := by
  rw [← clearLow1_eq_ofNat, ← effectiveAddress_eq, effectiveAddress]

/-! ## Jumping and branching, by the alignment of the target (R279) -/

section
variable {s : State} {rd : Reg} {t : Word} {offset : BitVec 13}

theorem State.jump_of_aligned (h : t.toNat % 4 = 0) : s.jump rd t = .next ((s.writeX rd (s.pc + 4)).setPc t) :=
  if_pos ((aligned4_iff t).2 h)

theorem State.jump_of_misaligned (h : t.toNat % 4 ≠ 0) : s.jump rd t = s.raise .instructionAddressMisaligned t :=
  if_neg ((aligned4_iff t).not.2 h)

theorem State.branch_not_taken : s.branch false offset = .next s.advance := rfl

theorem State.branch_of_aligned (h : (relativeTarget s offset).toNat % 4 = 0) :
    s.branch true offset = .next (s.setPc (relativeTarget s offset)) := by
  rw [relativeTarget_eq] at h ⊢
  exact if_pos ((aligned4_iff _).2 h)

theorem State.branch_of_misaligned (h : (relativeTarget s offset).toNat % 4 ≠ 0) :
    s.branch true offset = s.raise .instructionAddressMisaligned (relativeTarget s offset) := by
  rw [relativeTarget_eq] at h ⊢
  exact if_neg ((aligned4_iff _).not.2 h)

end

/-! ## From `exec` to the rules -/

/-- An instruction whose one effect is on `pc`. -/
theorem completesAt_of_exec {i : Instr} {s : State} {p : Word} (hexec : exec i s = .next (s.setPc p)) :
    CompletesAt i s p :=
  ⟨s.setPc p, hexec, rfl, State.readX_congr rfl, ⟨State.readByte_congr rfl, rfl⟩, rfl, rfl, rfl, rfl, rfl⟩

/-- An instruction that is a jump to `target` follows the rule of R270 and R271. -/
theorem jumpRule_of_exec {i : Instr} {rd : Reg} {target : State → Word}
    (hexec : ∀ s, exec i s = s.jump rd (target s)) : JumpRule i rd target where
  completes s h := by
    have hmem : SameMemory s ((s.writeX rd (s.pc + 4)).setPc (target s)) :=
      ⟨State.readByte_congr (by simp), by simp⟩
    have hcontrol : SameControl s ((s.writeX rd (s.pc + 4)).setPc (target s)) :=
      ⟨by simp, by simp, by simp, by simp, by simp⟩
    exact ⟨_, (hexec s).trans (State.jump_of_aligned h), writesRegister_writeX s rd _ _, rfl, hmem, hcontrol⟩
  misaligned s h := by
    rw [hexec, State.jump_of_misaligned h]
    exact State.raises_raise ..

/-- An instruction that branches on a test follows the rule of R272 for the condition that the test decides. -/
theorem branchRule_of_exec {i : Instr} {holds : State → Prop} {test : State → Bool} {offset : BitVec 13}
    (hexec : ∀ s, exec i s = s.branch (test s) offset) (htest : ∀ s, test s = true ↔ holds s) :
    BranchRule i holds offset where
  notTaken s hnot := by
    have hfalse : test s = false := Bool.eq_false_iff.2 ((htest s).not.2 hnot)
    exact completesAt_advance_of_exec (by rw [hexec, hfalse, State.branch_not_taken])
  taken s hholds haligned :=
    completesAt_of_exec (by rw [hexec, (htest s).2 hholds, State.branch_of_aligned haligned])
  misaligned s hholds hmisaligned := by
    rw [hexec, (htest s).2 hholds, State.branch_of_misaligned hmisaligned]
    exact State.raises_raise ..

/-! ## Conditions and illegal words (R10, R111) -/

theorem not_slt_iff (x y : Word) : (!x.slt y) = true ↔ y.toInt ≤ x.toInt := by
  rw [Bool.not_eq_true', ← Bool.not_eq_true, BitVec.slt_iff_toInt_lt, not_lt]

theorem not_ult_iff (x y : Word) : (!x.ult y) = true ↔ y.toNat ≤ x.toNat := by
  rw [Bool.not_eq_true', ← Bool.not_eq_true, BitVec.ult_iff_toNat_lt, not_lt]

theorem ListedIllegal.decodeWord_error {w : InstWord} (h : ListedIllegal w) : ∃ e, decodeWord w = .error e :=
  ⟨_, decodeWord_of_no_row fun _ hrow => not_accepts_of_listedIllegal hrow h⟩

/-! ## The statements -/

/-- Settles O29: each jump is `State.jump` to its rule's target, and every other `funct3` of JALR's opcode is listed in
R107 as no instruction. -/
theorem jumpsFollowTheirRules : Obligations.JumpsFollowTheirRules := by
  intro rd rs1 offset displacement
  refine ⟨encodes_jal, jumpRule_of_exec fun s => ?_, ?_, jumpRule_of_exec fun s => ?_, fun w hop hf3 => ?_⟩
  · rw [relativeTarget_eq]
    rfl
  · exact encodes_layoutI (name := "jalr") (controlRows_subset (by simp [controlRows])) (by decide) rfl
  · rw [jalrTarget_eq]
    rfl
  · refine (ListedIllegal.minor 0x67#7 (w.extractLsb' 12 3) ?_ hop rfl).decodeWord_error
    generalize w.extractLsb' 12 3 = f3 at hf3 ⊢
    revert f3
    decide

/-- Settles O30: each branch is `State.branch` on a test that decides its rule's condition. -/
theorem branchesFollowTheirRules : Obligations.BranchesFollowTheirRules := by
  intro rs1 rs2 offset
  refine ⟨fun heven => ?_, ?_, ?_, ?_, ?_, ?_, ?_, fun w hop hf3 => ?_⟩
  · have hwf : (!offset.getLsbD 0) = true := by rw [heven, Bool.not_false]
    exact ⟨encodes_layoutB rfl (by decide) hwf, encodes_layoutB rfl (by decide) hwf,
      encodes_layoutB rfl (by decide) hwf, encodes_layoutB rfl (by decide) hwf,
      encodes_layoutB rfl (by decide) hwf, encodes_layoutB rfl (by decide) hwf⟩
  · exact branchRule_of_exec (fun _ => rfl) fun _ => beq_iff_eq
  · exact branchRule_of_exec (fun _ => rfl) fun _ => bne_iff_ne
  · exact branchRule_of_exec (fun _ => rfl) fun _ => BitVec.slt_iff_toInt_lt
  · exact branchRule_of_exec (fun _ => rfl) fun _ => not_slt_iff ..
  · exact branchRule_of_exec (fun _ => rfl) fun _ => BitVec.ult_iff_toNat_lt
  · exact branchRule_of_exec (fun _ => rfl) fun _ => not_ult_iff ..
  · rcases hf3 with h | h
    · exact (ListedIllegal.minor 0x63#7 2#3 (by decide) hop h).decodeWord_error
    · exact (ListedIllegal.minor 0x63#7 3#3 (by decide) hop h).decodeWord_error

end Sys2Proof.Machine
end

section
/-!
SUPPORT. Ordinary instructions (`spec/60_exceptions.md` R321) do the same whatever the mode, the CSRs and the trap model: none of
the operations they are made of reads these, and only a raise would.
-/

namespace Sys2Proof.Machine

/-- The state with another mode, other CSRs and another trap model. -/
def State.withControl (s : State) (p : Mode) (c : CsrFile) (m : TrapModel) : State :=
  { s with priv := p, csr := c, cfg := { s.cfg with trapModel := m } }

section
variable {s t : State} {p : Mode} {c : CsrFile} {m : TrapModel}

/-! ## The operations under another control state -/

theorem State.withControl_readX (r : Reg) : (s.withControl p c m).readX r = s.readX r := rfl

theorem State.withControl_writeX (r : Reg) (v : Word) :
    (s.withControl p c m).writeX r v = (s.writeX r v).withControl p c m := by
  unfold State.writeX
  split <;> rfl

theorem State.withControl_readBytes (a : Word) (n : Nat) : (s.withControl p c m).readBytes a n = s.readBytes a n := by
  induction n generalizing a with
  | zero => rfl
  | succ n ih => rw [State.readBytes, State.readBytes, ih]; rfl

theorem State.withControl_writeBytes (a v : Word) (n : Nat) :
    (s.withControl p c m).writeBytes a v n = (s.writeBytes a v n).withControl p c m := by
  induction n generalizing s a v with
  | zero => rfl
  | succ n ih => exact ih (s := s.writeByte a (v.setWidth 8)) ..

theorem State.withControl_checkAccess (k : Access) (a : Word) (w : Width) :
    (s.withControl p c m).checkAccess k a w = s.checkAccess k a w := rfl

/-! ## The shared operations of the ordinary instructions -/

theorem State.raise_ne_next_of_terminal (hs : s.cfg.trapModel = .terminal) {e : Exc} {v : Word} :
    s.raise e v ≠ .next t := by
  intro h
  obtain ⟨hp, -⟩ := State.raise_next h
  cases hs.symm.trans hp

theorem State.withControl_writeAndAdvance {rd : Reg} {v : Word} (h : s.writeAndAdvance rd v = .next t) :
    (s.withControl p c m).writeAndAdvance rd v = .next (t.withControl p c m) := by
  cases h
  rw [State.writeAndAdvance, State.withControl_writeX]
  rfl

theorem State.withControl_load (hs : s.cfg.trapModel = .terminal) {w : Width} {f : Word → Word} {rd rs1 : Reg}
    {o : BitVec 12} (h : s.load w f rd rs1 o = .next t) :
    (s.withControl p c m).load w f rd rs1 o = .next (t.withControl p c m) := by
  rcases State.load_next h with ⟨hgranted, rfl⟩ | ⟨e, hraise⟩
  · simp only [State.load, State.withControl_readX, State.withControl_checkAccess, hgranted,
      State.withControl_readBytes]
    exact State.withControl_writeAndAdvance rfl
  · exact absurd hraise (State.raise_ne_next_of_terminal hs)

theorem State.withControl_store (hs : s.cfg.trapModel = .terminal) {w : Width} {rs2 rs1 : Reg} {o : BitVec 12}
    (h : s.store w rs2 rs1 o = .next t) :
    (s.withControl p c m).store w rs2 rs1 o = .next (t.withControl p c m) := by
  rcases State.store_next h with ⟨hgranted, rfl⟩ | ⟨e, hraise⟩
  · simp only [State.store, State.withControl_readX, State.withControl_checkAccess, hgranted,
      State.withControl_writeBytes]
    rfl
  · exact absurd hraise (State.raise_ne_next_of_terminal hs)

theorem State.withControl_jump (hs : s.cfg.trapModel = .terminal) {rd : Reg} {a : Word}
    (h : s.jump rd a = .next t) : (s.withControl p c m).jump rd a = .next (t.withControl p c m) := by
  rcases State.jump_next h with ⟨ha, rfl⟩ | hraise
  · rw [State.jump, if_pos ha, State.withControl_writeX]
    rfl
  · exact absurd hraise (State.raise_ne_next_of_terminal hs)

theorem State.withControl_branch (hs : s.cfg.trapModel = .terminal) {taken : Bool} {o : BitVec 13}
    (h : s.branch taken o = .next t) : (s.withControl p c m).branch taken o = .next (t.withControl p c m) := by
  rcases State.branch_next h with ⟨rfl, rfl⟩ | ⟨rfl, ha, rfl⟩ | hraise
  · rfl
  · exact if_pos ha
  · exact absurd hraise (State.raise_ne_next_of_terminal hs)

/-- Every ordinary instruction is one of the shared operations, or a fence, which raises nothing. -/
theorem exec_withControl {i : Instr} (hi : modeIndependent i = true) (hs : s.cfg.trapModel = .terminal)
    (h : exec i s = .next t) : exec i (s.withControl p c m) = .next (t.withControl p c m) := by
  cases i
  case csrrw | csrrs | csrrc | csrrwi | csrrsi | csrrci => cases hi
  case ecall | ebreak | uret | sret | mret | wfi | sfenceVma => cases hi
  case addiw | slliw | srliw | sraiw | addw | subw | sllw | srlw | sraw => exact State.withControl_writeAndAdvance h
  case lui | auipc | addi | slti | sltiu | xori | ori | andi | slli | srli | srai =>
    exact State.withControl_writeAndAdvance h
  case add | sub | sll | slt | sltu | xor | srl | sra | or | and => exact State.withControl_writeAndAdvance h
  case lwu | ld | lb | lh | lw | lbu | lhu => exact State.withControl_load hs h
  case sd | sb | sh | sw => exact State.withControl_store hs h
  case jal | jalr => exact State.withControl_jump hs h
  case beq | bne | blt | bge | bltu | bgeu => exact State.withControl_branch hs h
  case fence | fenceI =>
    cases h
    rfl

end

/-- Settles O58, from `exec_withControl`: the instruction leaves the parameters as they are. -/
theorem modeDoesNotMatterToOrdinaryInstructions : Obligations.ModeDoesNotMatterToOrdinaryInstructions := by
  intro i s t p c m hi hs h
  have hrun := exec_withControl (p := p) (c := c) (m := m) hi hs h
  unfold State.withControl at hrun
  rwa [(exec_effect h).cfg_eq] at hrun

end Sys2Proof.Machine
end

section
/-!
SUPPORT. Delivering exceptions and interrupts (`spec/60_exceptions.md` R310 to R313, R322, R338, R340, R341, R343): sampling the
platform's lines, the mode that handles a trap, the interrupt of highest priority, and what lowers the privilege.
-/

namespace Sys2Proof.Machine

/-! ## The platform's lines (R338, R314) -/

theorem State.samplePlatform_undriven {s : State} (h : ¬ (s.cfg.platform = .drawn ∧ s.cfg.trapModel = .privileged)) :
    s.samplePlatform = s := by
  rcases State.samplePlatform_cases s with hsame | ⟨hdrawn, hp, -⟩
  · exact hsame
  · exact absurd ⟨hdrawn, hp⟩ h

theorem State.samplePlatform_drawn {s : State} (hd : s.cfg.platform = .drawn) (hp : s.cfg.trapModel = .privileged) :
    s.samplePlatform = { s with
      csr := { s.csr with mip := viewWrite platformMask s.csr.mip (Config.freePlatformLines s.draws) }
      draws := s.draws + 1 } := by
  simp only [State.samplePlatform, hd]
  exact if_pos (s.privileged_iff.2 hp)

theorem getLsbD_platformMask {k : Nat} (hk : k < 64) : platformMask.getLsbD k = true ↔ k = 3 ∨ k = 7 ∨ k = 11 := by
  revert k
  decide

/-- The driven bits take the platform's value, the others keep theirs. -/
theorem takesWrittenBit_platformLines (old lines : Word) {k : Nat} (hk : k < 64) :
    TakesWrittenBit (k = 3 ∨ k = 7 ∨ k = 11) ((viewWrite platformMask old lines).getLsbD k) (lines.getLsbD k)
      (old.getLsbD k) := by
  rw [viewWrite_eq_maskedWrite]
  exact takesWrittenBit_maskedWrite hk (getLsbD_platformMask hk)

/-! ## The handler and the current mode (R340) -/

theorem Mode.code_le_machine (y : Mode) : y.code ≤ Mode.m.code := by cases y <;> decide

/-- An exception is never handled below the mode it is raised in. -/
theorem State.priv_le_exceptionHandler (s : State) (c : Nat) : s.priv.code ≤ (s.exceptionHandler c).code := by
  have hrules := s.handlesException_exceptionHandler c
  cases hp : s.priv with
  | u => exact Nat.zero_le _
  | m => rw [hrules.fromMachine hp]
  | s =>
    by_cases hd : InMedeleg s c
    · cases hs : s.cfg.hasS with
      | true => rw [hrules.fromSupervisor hp hd hs]
      | false => simp [State.exceptionHandler, hp, hs, Mode.code]
    · rw [hrules.notDelegated hd]
      exact Mode.code_le_machine _

/-! ## The interrupt of highest priority (R343) -/

/-- What a search finds comes from the first element that answers: in an ordered list it precedes every other that
does. -/
theorem exists_first_of_findSome?_eq_some {α β : Type} {r : α → α → Prop} {l : List α} {f : α → Option β} {b : β}
    (hl : l.Pairwise r) (h : l.findSome? f = some b) :
    ∃ a, f a = some b ∧ ∀ a' ∈ l, f a' ≠ none → a' = a ∨ r a a' := by
  obtain ⟨before, a, after, rfl, ha, hbefore⟩ := List.findSome?_eq_some_iff.1 h
  obtain ⟨-, hafter, -⟩ := List.pairwise_append.1 hl
  refine ⟨a, ha, fun a' ha' hanswers => ?_⟩
  rcases List.mem_append.1 ha' with hin | hin
  · exact absurd (hbefore a' hin) hanswers
  · exact (List.mem_cons.1 hin).imp_right ((List.pairwise_cons.1 hafter).1 a')

/-- The same for the elements that pass a test. -/
theorem eq_or_rel_of_find?_eq_some {α : Type} {r : α → α → Prop} {l : List α} {q : α → Bool} {a b : α}
    (hl : l.Pairwise r) (h : l.find? q = some a) (hb : b ∈ l) (hq : q b = true) : b = a ∨ r a b := by
  rw [List.find?_eq_findSome?_guard] at h
  obtain ⟨first, hfirst, hprecedes⟩ := exists_first_of_findSome?_eq_some hl h
  obtain ⟨rfl, -⟩ := Option.guard_eq_some_iff.1 hfirst
  exact hprecedes b hb (by simp [Option.guard, hq])

theorem Irq.mem_byPriority (c : Irq) : c ∈ Irq.byPriority := by cases c <;> decide

theorem Irq.byPriority_ranked : Irq.byPriority.Pairwise (fun c d => irqRank c < irqRank d) := by decide

/-- The selected interrupt precedes every takeable one, by handler mode and then in the order of R343. -/
theorem State.selectIrq_precedes {s : State} {c c' : Irq} {y' : Mode} (h : s.selectIrq = some c)
    (ht : Takeable s c' y') :
    y'.code < (s.irqHandler c).code ∨ (y' = s.irqHandler c ∧ irqRank c ≤ irqRank c') := by
  obtain ⟨hp, rfl, htakeable⟩ := (takeable_iff s c' y').1 ht
  have hmodes : [Mode.m, Mode.s, Mode.u].Pairwise (fun y z => z.code < y.code) := by decide
  have hmode : s.irqHandler c' ∈ [Mode.m, Mode.s, Mode.u] := by cases s.irqHandler c' <;> decide
  rw [State.selectIrq, if_pos hp] at h
  obtain ⟨y, hy, hfirst⟩ := exists_first_of_findSome?_eq_some hmodes h
  obtain ⟨rfl, -⟩ : s.irqHandler c = y ∧ s.irqTakeable c = true := by simpa using List.find?_some hy
  have hanswers : Irq.byPriority.find? (fun d => s.irqHandler d == s.irqHandler c' && s.irqTakeable d) ≠ none :=
    fun hnone => List.find?_eq_none.1 hnone c' c'.mem_byPriority (by simp [htakeable])
  rcases hfirst _ hmode hanswers with heq | hlt
  · refine .inr ⟨heq, ?_⟩
    have hpasses : (s.irqHandler c' == s.irqHandler c && s.irqTakeable c') = true := by simp [heq, htakeable]
    rcases eq_or_rel_of_find?_eq_some Irq.byPriority_ranked hy c'.mem_byPriority hpasses with rfl | hrank
    · exact le_rfl
    · exact hrank.le
  · exact .inl hlt

/-! ## The privilege mode (R322) -/

/-- No effect but a trap return's lowers the privilege. -/
theorem Effect.priv_le {i : Instr} {s t : State} (e : Effect i s t) (hi : isTrapReturn i = false) :
    s.priv.code ≤ t.priv.code := by
  cases e
  case ret hret _ _ => cases hi.symm.trans hret
  case raise => exact s.priv_le_exceptionHandler _
  case timeout => exact s.priv_le_exceptionHandler _
  all_goals simp

/-- A step that lowers the privilege runs a trap return: WFI, interrupts and exceptions do not lower it. -/
theorem step_lowers_priv {s t : State} (h : step s = .next t) (hlower : t.priv.code < s.priv.code) :
    ∃ i v, isTrapReturn i = true ∧ (v = s.samplePlatform ∨
      v = { s.samplePlatform with draws := s.samplePlatform.draws + 1 }) ∧ exec i v = .next t := by
  rw [← s.samplePlatform_priv] at hlower
  have hnot : ∀ {i : Instr} {v : State}, (v = s.samplePlatform ∨
      v = { s.samplePlatform with draws := s.samplePlatform.draws + 1 }) → Effect i v t → isTrapReturn i = true := by
    intro i v hv e
    by_contra hi
    have hle := e.priv_le (Bool.eq_false_iff.2 hi)
    rcases hv with rfl | rfl <;> exact absurd hle (not_le.2 hlower)
  obtain ⟨u, rfl, ⟨-, hwfi⟩ | ⟨-, c, hc, rfl⟩ | ⟨-, -, v, i, hv, -, hi⟩ | ⟨-, -, v, e, w, hv, hr⟩⟩ := step_cases h
  · cases hnot (.inl rfl) (exec_effect hwfi)
  · obtain ⟨-, -, hle⟩ := State.selectIrq_handler hc
    exact absurd hle (not_le.2 hlower)
  · exact ⟨i, v, hnot hv (exec_effect hi), hv, hi⟩
  · -- A raise is an effect of every instruction, ECALL among them.
    cases hnot (i := .ecall) hv (Effect.ofRaise hr)

/-- Under `terminal` no CSR instruction, trap, trap return or raise completes, so mode and CSRs stay (R311, R314). -/
theorem Effect.control_eq_of_terminal {i : Instr} {s t : State} (e : Effect i s t)
    (hs : s.cfg.trapModel = .terminal) : t.priv = s.priv ∧ t.csr = s.csr := by
  cases e
  case csr hc =>
    obtain ⟨-, hp, -⟩ := State.csrCheck_eq_some_iff.1 hc
    cases hs.symm.trans hp
  case ret hp _ => cases hs.symm.trans hp
  case raise hp => cases hs.symm.trans hp
  case timeout hp => cases hs.symm.trans hp
  all_goals simp

theorem step_control_eq_of_terminal {s t : State} (hs : s.cfg.trapModel = .terminal) (h : step s = .next t) :
    t.priv = s.priv ∧ t.csr = s.csr := by
  have hkept : t.cfg.trapModel = .terminal ∧ t.priv = s.priv ∧ t.csr = s.csr := by
    refine step_keeps (P := fun u => u.cfg.trapModel = .terminal ∧ u.priv = s.priv ∧ u.csr = s.csr)
      (fun u ⟨hterminal, hsame⟩ => ?_) (fun _ hu => hu) (fun u c ⟨hterminal, _⟩ hc => ?_)
      (fun i u v ⟨hterminal, hpriv, hcsr⟩ e => ?_) ⟨hs, rfl, rfl⟩ h
    · rw [State.samplePlatform_undriven (by simp [hterminal])]
      exact ⟨hterminal, hsame⟩
    · obtain ⟨hp, -⟩ := State.selectIrq_handler hc
      cases hterminal.symm.trans (u.privileged_iff.1 hp)
    · obtain ⟨hpriv', hcsr'⟩ := e.control_eq_of_terminal hterminal
      exact ⟨e.cfg_eq ▸ hterminal, hpriv'.trans hpriv, hcsr'.trans hcsr⟩
  exact hkept.2

/-! ## The statements -/

/-- Settles O56: no effect but a trap return's lowers the mode, and under `terminal` no effect changes mode or CSRs. -/
theorem onlyTrapReturnsLowerPrivilege : Obligations.OnlyTrapReturnsLowerPrivilege :=
  fun _ _ h => ⟨step_lowers_priv h, fun hs => step_control_eq_of_terminal hs h⟩

/-- Settles O10: drawn lines under `privileged` are a write through the mask of the three bits. -/
theorem platformDrivesThreeBits : Obligations.PlatformDrivesThreeBits := by
  intro s
  refine ⟨fun h => State.samplePlatform_undriven (by rcases h with h | h <;> simp [h]), ?_⟩
  by_cases hdriven : s.cfg.platform = .drawn ∧ s.cfg.trapModel = .privileged
  · obtain ⟨hd, hp⟩ := hdriven
    refine ⟨_, _, State.samplePlatform_drawn hd hp, fun k h3 h7 h11 => ?_, fun _ _ => ⟨rfl, fun k hk => ?_⟩⟩
    · exact getLsbD_eq_of_lt fun hlt => (takesWrittenBit_platformLines _ _ hlt).2 (by simp [h3, h7, h11])
    · exact (takesWrittenBit_platformLines _ _ (by omega)).1 hk
  · exact ⟨s.csr.mip, s.draws, State.samplePlatform_undriven hdriven, fun _ _ _ _ => rfl,
      fun hd hp => absurd ⟨hd, hp⟩ hdriven⟩

/-- Settles O45, which is `State.raises_raise`. -/
theorem raiseDeliversTheException : Obligations.RaiseDeliversTheException := State.raises_raise

/-- Settles O46: the model's two choices of handler are those of R340 and R343. -/
theorem handlerModeIsDelegated : Obligations.HandlerModeIsDelegated :=
  fun s c q => ⟨s.handlesException_exceptionHandler c, s.priv_le_exceptionHandler c, (handlesInterrupt_iff s q _).2 rfl⟩

/-- Settles O47, which is `State.entersTrap_takeTrap`. -/
theorem trapEntrySavesAndRedirects : Obligations.TrapEntrySavesAndRedirects :=
  fun s interrupt _ tval epc y hc => s.entersTrap_takeTrap interrupt hc tval epc y

/-- Settles O48: the selected interrupt is takeable, precedes the others and is taken by trap entry; with none the hart
fetches. -/
theorem highestPriorityInterruptIsTaken : Obligations.HighestPriorityInterruptIsTaken := by
  intro s hstalled
  refine ⟨fun ⟨c₀, y₀, hsome⟩ => ?_, step_fetches hstalled⟩
  obtain ⟨c, hc⟩ := Option.ne_none_iff_exists'.1 (State.selectIrq_ne_none hsome)
  obtain ⟨hp, ht, -⟩ := State.selectIrq_handler hc
  have hcode : c.code < 2 ^ 63 := by cases c <;> decide
  have hstep : step s = .next (s.samplePlatform.takeIrq c) := by
    simp only [step, State.cycle, hstalled, hc, Bool.false_eq_true, if_false]
  refine ⟨c, _, _, (takeable_iff _ _ _).2 ⟨hp, rfl, ht⟩, fun _ _ => State.selectIrq_precedes hc, hstep, ?_⟩
  rw [← s.samplePlatform_pc]
  exact State.entersTrap_takeTrap _ true hcode 0 _ _

end Sys2Proof.Machine
end

section
/-!
SUPPORT. The fields of the control and status registers (`spec/60_exceptions.md` R331 to R339): what is legal in MPP and MODE,
`mstatus` and its views bit by bit, the views of `mie` and `mip`, and the registers that R339 gives.
-/

namespace Sys2Proof.Machine

/-! ## MPP and MODE (R331, R333) -/

theorem Mode.ofCode_eq_some_iff (b : BitVec 2) (y : Mode) : Mode.ofCode b = some y ↔ b.toNat = y.code := by
  revert b
  cases y <;> decide

/-- A written code of a mode that exists is taken. -/
theorem legalMpp_of_code {cfg : Config} {b : BitVec 2} {y : Mode} (old : Mode) (hb : b.toNat = y.code)
    (hy : y.present cfg = true) : legalMpp cfg old b = y := by
  rw [legalMpp, (Mode.ofCode_eq_some_iff b y).2 hb]
  exact if_pos hy

/-- Any other written code leaves the field as it was. -/
theorem legalMpp_of_absent {cfg : Config} {b : BitVec 2} (old : Mode)
    (hb : ∀ y : Mode, b.toNat = y.code → y.present cfg = false) : legalMpp cfg old b = old := by
  unfold legalMpp
  split
  next y hy => exact if_neg (by simp [hb y ((Mode.ofCode_eq_some_iff b y).1 hy)])
  next => rfl

theorem State.csrWrite_mstatus_mpp (s : State) (v : Word) :
    (s.csrWrite .mstatus v).csr.mstatus.mpp = mppHolds s.cfg (legalMpp s.cfg s.csr.mstatus.mpp (v.extractLsb' 11 2)) :=
  rfl

/-- A reserved MODE leaves the field as it was. -/
theorem getLsbD_tvecWrite_of_reserved {v : Word} (old : Word) (hv : 2 ≤ v.toNat % 4) {k : Nat} (hk : k < 2) :
    (tvecWrite old v).getLsbD k = old.getLsbD k := by
  have hupper : v.getLsbD 1 = true := Bool.eq_true_of_not_eq_false ((mode_legal_iff v).not.1 (by omega))
  rw [tvecWrite, if_pos hupper, getLsbD_maskedWrite _ _ _ (by omega),
    if_neg ((getLsbD_not_three (by omega)).not.2 (by omega))]

/-! ## The views of mstatus (R332) -/

/-- The writable bits of `mstatus` among those `sstatus` shows are among the seven fields that change. -/
theorem shownBySstatus_and_writable_iff (s : State) {k : Nat} (hk : k < 64) :
    k ∈ [0, 1, 4, 5, 8, 18, 19] ∧ writableBits s .mstatus k ↔
      sstatusMask.getLsbD k = true ∧ writableBits s .mstatus k := by
  have hshown : ∀ k ∈ [0, 1, 4, 5, 8, 18, 19], sstatusMask.getLsbD k = true := by decide
  refine ⟨fun ⟨hmem, hw⟩ => ⟨hshown k hmem, hw⟩, fun h => ⟨?_, h.2⟩⟩
  rcases (writableBits_sstatus_iff s hk).1 h with ⟨-, hfield⟩ | ⟨-, hfield⟩ <;>
    · simp only [List.mem_cons]
      omega

theorem getLsbD_sstatusMask {k : Nat} (hk : k < 64) :
    sstatusMask.getLsbD k = decide (k ∈ [0, 1, 4, 5, 8, 13, 14, 15, 16, 18, 19, 32, 33, 63]) := by
  revert k
  decide

theorem getLsbD_ustatusMask_eq {k : Nat} (hk : k < 64) : ustatusMask.getLsbD k = decide (k ∈ [0, 4]) := by
  revert k
  decide

/-! ## The views of mie and mip (R338) -/

/-- A view shows the bits of its register that its mask has. -/
theorem getLsbD_view_iff {register view : Word} {k : Nat} {shown : Prop} (hview : view.getLsbD k = true ↔ shown) :
    (register &&& view).getLsbD k = true ↔ shown ∧ register.getLsbD k = true := by
  rw [BitVec.getLsbD_and, Bool.and_eq_true, hview, and_comm]

/-- A write of one register of two through a mask is a write through the view that the mask writes. -/
theorem writesThroughView_of_mask {s t : State} {shown other : Csr} {v mask : Word} {k : Nat} {writable : Prop}
    (hk : k < 64) (hmask : mask.getLsbD k = true ↔ writable)
    (hshown : t.csrRead shown = maskedWrite mask (s.csrRead shown) v) (hother : t.csrRead other = s.csrRead other) :
    WritesThroughView s t shown other v k writable := by
  obtain ⟨htaken, hkept⟩ := takesWrittenBit_maskedWrite (old := s.csrRead shown) (v := v) hk hmask
  rw [WritesThroughView, hshown, hother]
  exact ⟨htaken, hkept, rfl⟩

/-! ## misa (R339) -/

theorem getLsbD_misaWord (cfg : Config) {k : Nat} (hk : k < 64) :
    (misaWord cfg).getLsbD k =
      (decide (k = 63 ∨ k = 8) || (decide (k = 18) && cfg.hasS) || (decide (k = 20) && cfg.hasU) ||
        (decide (k = 13) && cfg.hasN && cfg.hasU)) := by
  have hfixed : ∀ k, k < 64 → (0x8000000000000100#64).getLsbD k = decide (k = 63 ∨ k = 8) := by decide
  simp only [misaWord, BitVec.getLsbD_or, getLsbD_bitAt _ hk, hfixed k hk, userTraps, Bool.and_comm, Bool.and_assoc]

/-! ## The statements -/

/-- Settles O33: MPP is what `legalMpp` keeps of the written code, and a reserved MODE is not written. -/
theorem legalisedFieldsKeepLegalValues : Obligations.LegalisedFieldsKeepLegalValues := by
  refine ⟨fun s v => ⟨fun hu => ⟨fun y hcode hy => ?_, fun habsent => ?_⟩, fun hu => ?_⟩, fun s v c hc => ?_⟩
  · rw [s.csrWrite_mstatus_mpp, mppHolds_of_hasU hu, legalMpp_of_code _ hcode hy]
  · rw [s.csrWrite_mstatus_mpp, mppHolds_of_hasU hu, legalMpp_of_absent _ habsent]
  · rw [s.csrWrite_mstatus_mpp, mppHolds_of_not_hasU hu]
  · have hwrite : (s.csrWrite c v).csrRead c = tvecWrite (s.csrRead c) v := by rcases hc with rfl | rfl | rfl <;> rfl
    rw [hwrite]
    exact ⟨tvecWrite_of_mode_legal _, fun hv _ => getLsbD_tvecWrite_of_reserved _ hv⟩

/-- Settles O35: the bit at each place of the layout, its field hardwired. -/
theorem mstatusReadsItsFields : Obligations.MstatusReadsItsFields := by
  intro s k hk
  have hmpp : ∀ y : Mode, mppHolds s.cfg s.csr.mstatus.mpp = y ↔
      if s.cfg.hasU = true then s.csr.mstatus.mpp = y else y = .m := by
    intro y
    cases hu : s.cfg.hasU <;> simp [hu, eq_comm]
  rw [State.csrRead, Mstatus.getLsbD_toWord _ _ hk]
  unfold Mstatus.bit
  split <;> simp_all [Mstatus.hardwire, userTraps]

/-- Settles O36: a view is `mstatus` through its mask, which a write goes through too. -/
theorem statusViewsShowMstatus : Obligations.StatusViewsShowMstatus := by
  intro s v k hk
  obtain ⟨hstaken, hskept⟩ := s.takesWrittenBit_mstatus_viewWrite (mask := sstatusMask) v hk (by decide)
  obtain ⟨hutaken, hukept⟩ := s.takesWrittenBit_mstatus_viewWrite (mask := ustatusMask) v hk (by decide)
  rw [← shownBySstatus_and_writable_iff s hk] at hstaken hskept
  rw [getLsbD_ustatusMask_eq hk, decide_eq_true_eq] at hutaken hukept
  refine ⟨?_, ?_, hstaken, hskept, hutaken, hukept⟩
  · rw [← getLsbD_sstatusMask hk, Bool.and_comm]
    exact BitVec.getLsbD_and
  · rw [← getLsbD_ustatusMask_eq hk, Bool.and_comm]
    exact BitVec.getLsbD_and

/-- Settles O37: each view reads and writes its register through the bits its delegation registers show. -/
theorem interruptViewsShowDelegatedBits : Obligations.InterruptViewsShowDelegatedBits := by
  intro s v k hk
  have hsupervisor : s.supervisorView.getLsbD k = true ↔ k ∈ [0, 1, 4, 5, 8, 9] ∧ InMideleg s k := by
    rw [getLsbD_supervisorView s hk]
    simp [and_comm]
  have huser : s.userView.getLsbD k = true ↔ k ∈ [0, 4, 8] ∧ InMideleg s k ∧ InSideleg s k := by
    rw [getLsbD_userView s hk]
    simp [and_comm, and_left_comm]
  have hsip : s.sipMask.getLsbD k = true ↔ k ∈ [0, 1, 8] ∧ InMideleg s k := by
    rw [getLsbD_sipMask s hk]
    simp [and_comm]
  have huip : s.uipMask.getLsbD k = true ↔ k = 0 ∧ InMideleg s k ∧ InSideleg s k := by
    rw [getLsbD_uipMask s hk]
    tauto
  refine ⟨?_, ?_, ?_, ?_, ?_, ?_, ?_, ?_⟩
  · exact (getLsbD_view_iff hsupervisor).trans and_assoc
  · exact (getLsbD_view_iff hsupervisor).trans and_assoc
  · exact (getLsbD_view_iff huser).trans (and_assoc.trans (and_congr_right' and_assoc))
  · exact (getLsbD_view_iff huser).trans (and_assoc.trans (and_congr_right' and_assoc))
  · exact writesThroughView_of_mask hk hsupervisor rfl rfl
  · exact writesThroughView_of_mask hk hsip rfl rfl
  · exact writesThroughView_of_mask hk huser rfl rfl
  · exact writesThroughView_of_mask hk huip rfl rfl

/-- Settles O38: the registers that are their field read and keep it, and `satp` with TVM = 1 is R211 (d). -/
theorem remainingCsrsReadAsGiven : Obligations.RemainingCsrsReadAsGiven := by
  intro s v
  refine ⟨rfl, rfl, rfl, fun k hk => getLsbD_misaWord s.cfg hk, rfl, rfl, rfl, rfl, rfl, rfl, rfl, ⟨rfl, rfl, rfl⟩,
    ⟨rfl, rfl, rfl⟩, ⟨rfl, rfl, rfl⟩, ⟨rfl, rfl, rfl⟩, ⟨rfl, rfl, rfl, rfl⟩, ⟨rfl, rfl⟩, ?_, ?_⟩
  · intro c hc
    simp only [List.mem_cons, List.not_mem_nil, or_false] at hc
    rcases hc with rfl | rfl | rfl | rfl <;> exact ⟨rfl, rfl⟩
  · intro i rd rs1 hs htvm hi
    have hdenied : ∀ writes, CsrDenied s 0x180#12 writes := fun _ => .inr (.inr (.inr ⟨rfl, hs, htvm⟩))
    obtain ⟨⟨-, hrw⟩, ⟨-, hrs⟩, ⟨-, hrc⟩, ⟨-, hrwi⟩, ⟨-, hrsi⟩, ⟨-, hrci⟩⟩ :=
      csrInstructionsFollowTheirRules s rd rs1 0x180#12 rs1
    rcases hi with rfl | rfl | rfl | rfl | rfl | rfl
    · exact hrw.denied (hdenied _)
    · exact hrs.denied (hdenied _)
    · exact hrc.denied (hdenied _)
    · exact hrwi.denied (hdenied _)
    · exact hrsi.denied (hdenied _)
    · exact hrci.denied (hdenied _)

end Sys2Proof.Machine
end

section
/-!
SUPPORT. The instruction a step runs (`spec/20_memory.md` R64, R66; `spec/70_reset_and_hazards.md` R362, R367): running a
fetched word, a fetch of bytes in the set S, and the bytes of a word loaded at `pc` from outside.
-/

namespace Sys2Proof.Machine

/-! ## Running a fetched word (R111, R367) -/

theorem State.runWord_of_decodeWord {w : InstWord} {i : Instr} (s : State) (h : decodeWord w = .ok i) :
    s.runWord w = exec i s := by
  rw [State.runWord, h]

theorem State.raises_runWord_of_no_row {w : InstWord} (s : State)
    (h : ∀ row ∈ opcodeTable, row.accepts w = false) :
    Raises (s.runWord w) s .illegalInstruction (w.setWidth 64) := by
  rw [State.runWord, decodeWord_of_no_row h]
  exact State.raises_raise ..

/-- A step of a hart that is ready to fetch runs the instruction that the word at `pc` decodes to. -/
theorem step_runs_decoded {s : State} {i : Instr} (hready : ReadyToFetch s.samplePlatform)
    (hdecode : decodeWord (wordAtPc s.samplePlatform) = .ok i) : step s = exec i s.samplePlatform := by
  rw [step_of_readyToFetch hready, State.runWord_of_decodeWord _ hdecode]

/-- A byte at `pc` in S is among the bytes of the fetch. -/
theorem any_inStored_of_not_synchronised {s : State} (h : ¬ FetchSynchronised s) :
    (accessBytes s.pc 4).any s.inStored = true := by
  obtain ⟨j, hj, hin⟩ : ∃ j, j < 4 ∧ ¬ s.inStored (byteAddr s.pc j) = false := by
    simpa only [FetchSynchronised, not_forall, exists_prop] using h
  exact (any_accessBytes s.pc 4 s.inStored).2 ⟨j, hj, eq_true_of_ne_false hin⟩

/-- A step whose fetch has a byte in S runs the word fetched, with one more free value drawn (R66). -/
theorem step_of_not_synchronised {s : State} (hs : s.samplePlatform.stalled = false)
    (hn : NoneTakeable s.samplePlatform) (hg : FetchGranted s.samplePlatform)
    (hstale : ¬ FetchSynchronised s.samplePlatform) :
    step s = State.runWord { s.samplePlatform with draws := s.samplePlatform.draws + 1 }
      (fetchedWord s.samplePlatform) := by
  rw [step_fetches hs hn, State.fetchAndRun, State.fetch_granted hg,
    if_pos (any_inStored_of_not_synchronised hstale)]

/-! ## A word placed in memory from outside (R56, R362) -/

theorem byteAddr_inj (a : Word) {i j : Nat} (hi : i < 2 ^ 64) (hj : j < 2 ^ 64) :
    byteAddr a i = byteAddr a j ↔ i = j := by
  rw [byteAddr, byteAddr, BitVec.add_right_inj]
  refine ⟨fun h => ?_, fun h => h ▸ rfl⟩
  simpa only [BitVec.toNat_ofNat, Nat.mod_eq_of_lt hi, Nat.mod_eq_of_lt hj] using congrArg BitVec.toNat h

/-- The memory after a word is placed is that after its bytes are written one by one. -/
theorem State.placeWord_mem (s : State) (a : Word) (w : InstWord) :
    (s.placeWord a w).mem =
      ((((s.writeByte (byteAddr a 0) (byteOfWord w 0)).writeByte (byteAddr a 1) (byteOfWord w 1)).writeByte
        (byteAddr a 2) (byteOfWord w 2)).writeByte (byteAddr a 3) (byteOfWord w 3)).mem := by
  rw [byteAddr_zero]
  rfl

theorem State.readByte_placeWord (s : State) (a : Word) (w : InstWord) {j : Nat} (hj : j < 4) :
    (s.placeWord a w).readByte (byteAddr a j) = byteOfWord w j := by
  have other : ∀ (t : State) (b : Byte) {i k : Nat}, i < 4 → k < 4 → i ≠ k →
      (t.writeByte (byteAddr a k) b).readByte (byteAddr a i) = t.readByte (byteAddr a i) :=
    fun t b _ _ hi hk hne =>
      t.readByte_writeByte_other b ((byteAddr_inj a (by omega) (by omega)).not.2 hne)
  rw [State.readByte_congr (s.placeWord_mem a w)]
  interval_cases j <;> simp [other, -byteAddr_zero]

/-- The bytes of a placed word leave S (R362). -/
theorem State.inStored_placeWord (s : State) (a : Word) (w : InstWord) {j : Nat} (hj : j < 4) :
    (s.placeWord a w).inStored (byteAddr a j) = false := by
  rw [State.inStored, List.any_eq_false]
  intro e he hsame
  obtain ⟨-, houtside⟩ := List.mem_filter.1 he
  rw [beq_iff_eq.1 hsame, Bool.not_eq_true', ← Bool.not_eq_true] at houtside
  exact houtside ((any_accessBytes a 4 _).2 ⟨j, hj, beq_self_eq_true _⟩)

/-! ## A word loaded at `pc` (R362) -/

theorem wordAtPc_loadAtPc (s : State) (w : InstWord) : wordAtPc (s.loadAtPc w) = w := by
  have hbyte : ∀ j, j < 4 → (s.loadAtPc w).readByte (byteAddr s.pc j) = byteOfWord w j :=
    fun _ hj => s.readByte_placeWord s.pc w hj
  rw [wordAtPc, State.loadAtPc_pc, hbyte 0 (by decide), hbyte 1 (by decide), hbyte 2 (by decide),
    hbyte 3 (by decide)]
  exact wordOfBytes_byteOfWord w

/-- The parameters, `pc` and what decides on interrupts are not part of the image, so they stay as they were. -/
theorem readyToFetch_loadAtPc {s : State} (hn : NoneTakeable s) (hg : FetchGranted s) (w : InstWord) :
    ReadyToFetch (s.loadAtPc w) :=
  ⟨rfl, hn, hg, fun _ hj => s.inStored_placeWord s.pc w hj⟩

/-! ## The statements -/

/-- Settles O6: a fetch with no byte in S runs the word at `pc`, one with a byte in S the word fetched, a draw later. -/
theorem stepRunsDecodedInstruction : Obligations.StepRunsDecodedInstruction := by
  intro s i
  have sampled := step_runs_decoded (s := s) (i := i)
  refine ⟨sampled, fun hsteady => ?_, fun hs hn hg hstale => ?_⟩
  · rwa [State.samplePlatform_steady hsteady] at sampled
  · rw [step_of_not_synchronised hs hn hg hstale]
    exact ⟨State.runWord_of_decodeWord _, State.raises_runWord_of_no_row _⟩

/-- Settles O12: the hart with the word loaded is ready to fetch, and the word at `pc` is the one loaded. -/
theorem loadedWordRunsNext : Obligations.LoadedWordRunsNext := by
  intro s w i hsteady hn hg hdecode
  obtain ⟨-, steady, -⟩ := stepRunsDecodedInstruction (s.loadAtPc w) i
  refine steady hsteady (readyToFetch_loadAtPc hn hg w) ?_
  rwa [wordAtPc_loadAtPc]

end Sys2Proof.Machine
end
